-- ==== Sys2Proof/Word.lean ====
section
/-! DEFINITION. The 32-bit word of the register window and of blocks, and its plainest splits. -/

namespace Sys2Proof

/-- A register or block word (R24, R180). -/
abbrev Word := BitVec 32

/-- Split a word into its four bytes, most significant first (R180: every word is carried most significant byte first). -/
def Word.bytes (w : Word) : List (BitVec 8) :=
  [w.extractLsb' 24 8, w.extractLsb' 16 8, w.extractLsb' 8 8, w.extractLsb' 0 8]

end Sys2Proof
end

