-- ==== Sys2Proof/Syntax.lean ====
section
/-! DEFINITION. The commands of the Galilaro 768: one constructor of `Instr` per row of spec/opcode_table.json, and the
plain-data operand types they carry. Numbers that an operand field of the spec holds are `Nat`; measured values that the
outside delivers (a converter result, a sensor reading, a timestamp) are operands. A verdict of a signature or of a
verification the spec names without defining its arithmetic (ECDSA, GCM) is a `Bool` operand called `good`, or a fact that names the words
it holds of. -/

namespace Sys2Proof

/-- Who issues a register transaction (R25): a management session with the message's TSEQ (R360), or MGP firmware; or a message that bears
a session's number and fails its tag; or one that a session keys under the maker's token (R366). -/
inductive Src where
  | session (sid tseq : Nat)
  | mgp
  | forged (sid : Nat)
  | token (sid tseq : Nat)
  deriving DecidableEq, Repr

/-- The path a management session runs on (R25, SEC.SINF.PATH of R370). -/
inductive Path where
  | eth | zlp | svc
  deriving DecidableEq, Repr

/-- Session roles, coded as in E4 of R167. -/
inductive Role where
  | owner | operator | observer | service
  deriving DecidableEq, Repr

/-- A role certificate as presented in OPEN (R357, R359): its role, serial number, not-after seconds, whether its
signature verifies under the owner trust anchor, and its words from W5 on (subject key and signature). -/
structure Cert where
  role : Role
  serial : Nat
  notAfter : Nat
  good : Bool
  rest : List Word
  deriving DecidableEq, Repr

/-- An OPEN message (R358): the requester's ephemeral key Q_R (24 words), its nonce N_R (8 words), and the role certificate, if one is
presented. -/
structure OpenMsg where
  qr : List Word
  nr : List Word
  cert : Option Cert
  deriving DecidableEq, Repr

/-- A read of a session (R28): how many words; which of them, counted from 0, fail parity where they pop a queue word (R205); and whether it is
the read request for the maker certificate (R370). -/
structure ReadReq where
  count : Nat
  bad : List Nat
  cert : Bool := false
  deriving DecidableEq, Repr

/-- What a pull-apart test finds on one input (R86): how far its legs moved, µV, and its bias, mV. -/
structure LegRead where
  moved : Nat
  bias : Nat
  deriving DecidableEq, Repr

/-- What a drive interval measures on one string of a port (R102): the colour (true: B), its current (10 µA) and forward voltage (mV). -/
structure StringRead where
  colB : Bool
  cur : Nat
  vf : Nat
  deriving DecidableEq, Repr

/-- What the twin partner reports of its legal side: its ordering code (R4: 0 S, 1 I, 2 IM), whether it is sealed, and its PDIG words,
pending or sealed (R162, R171); and the words of its message of the twin session's set-up, OPEN or ACCEPT (R358). -/
structure PartnerSeal where
  code : Nat
  sealed : Bool
  pdig : List Word
  far : List Word := []
  deriving DecidableEq, Repr

/-- What power-up finds: whether LID_N reads open (R166), and whether the signature of the stored sealed record verifies (R170). -/
structure PowerFacts where
  lid : Bool
  good : Bool
  deriving DecidableEq, Repr

/-- A distributed table frame's body with its frame-level facts (R312, R362). -/
structure TableFrame where
  good : Bool          -- endorsement and signature verify, and name the head position's unit
  srcPos : Nat
  agen : Nat
  epoch : Nat
  base : Nat           -- BASE seconds, 48 bits
  entries : List (Nat × List Word)
  late : Bool          -- it arrived after its BASE second or its EPOCH point had begun (R64)
  deriving DecidableEq, Repr

/-- A distributed stop frame (R312). -/
structure StopFrame where
  good : Bool
  srcPos : Nat
  agen : Nat
  epoch : Nat
  stop : Nat           -- STOPHI:STOPLO
  deriving DecidableEq, Repr

/-- What the power-up self-check converted on one modulator at one gain (R125): its results for the zero, +50 % and −50 % test reference
levels before L0, in 2^-8 code units. -/
structure CheckVal where
  modl : Nat
  gain : Nat
  zero : Int
  plus : Int
  minus : Int
  deriving DecidableEq, Repr

/-- A context entry of a TWILL checkpoint frame (R336, C0–C5). -/
structure CkCtx where
  ctx : Nat
  state : Nat
  seq : Nat
  acked : Nat
  ackt : Nat           -- ACKT as a time in 2^-16 ns
  deriving DecidableEq, Repr

/-- A burst record of a checkpoint (R336): page, byte offset, words. -/
structure CkBurst where
  page : Nat
  off : Nat
  ws : List Word
  deriving DecidableEq, Repr

/-- A received TWILL checkpoint frame (R336). `good` says whether the frame's tag verifies (R337). -/
structure CkFrame where
  fidx : Nat
  nfr : Nat
  full : Bool
  ckn : Nat
  epoch : Nat
  cgen : Nat
  ctxs : List CkCtx
  bursts : List CkBurst
  good : Bool
  deriving DecidableEq, Repr

/-- Whose signature one is (R375): the maker's, under the key in the loader, or one under a public key. -/
inductive Signer where
  | maker
  | key (pub : List Word)
  deriving DecidableEq, Repr

/-- A signature that verifies: an ECDSA P-384 signature over SHA-384 of these words (R375). -/
structure SigFact where
  who : Signer
  text : List Word
  sig : List Word
  deriving DecidableEq, Repr

/-- An image that opens (R375): by the key-encryption key of the device key, the ephemeral key, salt and info, the wrapped key unwraps, and
under it, by AES-256-GCM with this nonce and additional data, ciphertext and tag give the plaintext. -/
structure OpenFact where
  device : List Word
  eph : List Word
  salt : List Word
  info : List Nat
  wrapped : List Word
  nonce : List Word
  aad : List Word
  cipher : List Word
  tag : List Word
  plain : List Word
  deriving DecidableEq, Repr

/-- The SHA-384 digest of these words. -/
structure DigFact where
  text : List Word
  dig : List Word
  deriving DecidableEq, Repr

/-- What is found of a container by cryptography (R375, R378 checks 2–6, R380). What is not listed does not hold. -/
structure CheckFacts where
  sigs : List SigFact
  opens : List OpenFact
  digs : List DigFact
  deriving DecidableEq, Repr

/-- What BOOT finds (R380): of the container its region holds, or, of the image the hub left the factory with, whether it passes. -/
structure BootFacts where
  factory : Bool
  found : CheckFacts
  deriving DecidableEq, Repr

/-- A PTP event message as MGP composed it (R270): its kind (0 Sync, 1 Delay_Req, 2 Pdelay_Req, 3 Pdelay_Resp), originTimestamp, the UDP
checksum, and the two bytes that follow it in UDP/IPv6; and the other bytes of its Ethernet frame: those before the UDP checksum, or over
Layer 2 before the message, those of the message before its correctionField, between that and originTimestamp, and after. -/
structure PtpMsg where
  kind : Nat
  sec : Nat
  ns : Nat
  sum : Nat
  pad : Nat
  pre : List Nat
  head : List Nat
  mid : List Nat
  tail : List Nat
  deriving DecidableEq, Repr

/-- What comes with a received authority record (R304, R305): whether its signature verifies under the owner trust anchor, and the signature,
A16–A39. -/
structure RecSig where
  good : Bool
  sig : List Word
  deriving DecidableEq, Repr

/-- What a read of CANVAS finds (R251): words corrected, and the 8-byte addresses of words that could not be. -/
structure MemRead where
  corr : Nat
  unc : List Nat
  deriving DecidableEq, Repr

/-- The lanes locked at the end of a bring-up (R285): those this receiver holds, and those the far one does. -/
structure LaneMasks where
  rx : Nat
  tx : Nat
  deriving DecidableEq, Repr

/-- The commands. The docstring of each constructor is the row's own rule and what its operands are. -/
inductive Instr where
  /-- WRITE_BURST (R28): a write of `ws` from byte address `addr`; `good` is the outside fact a command in the burst is judged with:
  the verdict of a signature, or the SEAL_N level for MCMD. -/
  | writeBurst (src : Src) (addr : Nat) (ws : List Word) (good : Bool)
  /-- READ_BURST (R28): a read from byte address `addr`. -/
  | readBurst (src : Src) (addr : Nat) (req : ReadReq)
  /-- NOTICE (R361): the notice of `page` to session `sid`. -/
  | notice (sid page : Nat)
  /-- SOFT_RESET (R36). -/
  | softReset (src : Src) (page : Nat)
  /-- ENABLE (R38). -/
  | enable (src : Src) (page : Nat) (on : Bool)
  /-- MAINS_CROSSING (R50): timestamp in ns of domain time, and the phase the PLL holds after it, in 2^-32 turn. -/
  | mainsCrossing (t phase : Nat)
  /-- MLOST (R50). -/
  | mlost
  /-- ENCODER_EDGE (R52): the levels after the edge and its timestamp in ns. -/
  | encoderEdge (a b : Bool) (t : Nat)
  /-- INDEX_PULSE (R52). -/
  | indexPulse (t : Nat)
  /-- SSI_FRAME (R53): the frame's bits, whether the data line was idle after the last bit, and its timestamp. -/
  | ssiFrame (bits : Nat) (idle : Bool) (t : Nat)
  /-- PPS_EDGE (R55): timestamp in ns of domain time. -/
  | ppsEdge (t : Nat)
  /-- TRIGGER_EDGE (R68): pad, direction, timestamp in ns of domain time. -/
  | triggerEdge (pad : Nat) (rise : Bool) (t : Nat)
  /-- TRIGGER_WINDOW_END (R69): context whose window has reached its last sample. -/
  | triggerWindowEnd (ctx : Nat)
  /-- TRG_PULSE_END (R55). -/
  | trgPulseEnd (pad : Nat)
  /-- SCH_COMMIT (R62). -/
  | schCommit (src : Src)
  /-- SCH_ABANDON (R62). -/
  | schAbandon (src : Src)
  /-- SCH_STOP (R62). -/
  | schStop (src : Src)
  /-- SCH_CLEAR (R62). -/
  | schClear (src : Src)
  /-- SWITCH (R63). -/
  | switch
  /-- OPEN_POINT (R175): the live entry whose next point is reached. -/
  | openPoint (entry : Nat)
  /-- INTERPOLATED_SLOT (R71): the context whose oldest interpolated slot leaves the interpolator. Its crossing instant, its source samples and
  its codes are formed from the state, so those three operands are empty. -/
  | interpolatedSlot (ctx : Nat) (t n codes : Unit)
  /-- SWAP_POINT (R81). -/
  | swapPoint (entry : Nat)
  /-- OPTP_POINT (R58). -/
  | optpPoint (entry : Nat)
  /-- CKPT_POINT (R336). -/
  | ckptPoint (entry : Nat)
  /-- STOP_POINT (R65). -/
  | stopPoint
  /-- TABLE_MEMORY_ERROR (R66): whether the erroneous entry is in the live table, and its index. -/
  | tableMemoryError (live : Bool) (entry : Nat)
  /-- TABLE_FRAME (R312). -/
  | tableFrame (f : TableFrame)
  /-- STOP_FRAME (R312). -/
  | stopFrame (f : StopFrame)
  /-- BCMD_START (R90): bank 0–47, or 48 for OBK. -/
  | bcmdStart (src : Src) (bank : Nat)
  /-- BCMD_STOP (R90). -/
  | bcmdStop (src : Src) (bank : Nat)
  /-- BCMD_TESTIN (R90). -/
  | bcmdTestin (src : Src) (bank : Nat)
  /-- BCMD_TESTOUT (R90). -/
  | bcmdTestout (src : Src) (bank : Nat)
  /-- ROUTING_DISCHARGE (R77). -/
  | routingDischarge (bank : Nat)
  /-- MAKE_STEP (R77). -/
  | makeStep (bank : Nat)
  /-- SETTLE_END (R143): channel and path (true: path E). -/
  | settleEnd (ch : Nat) (pathE : Bool)
  /-- BLANKING_WINDOW (R82). -/
  | blankingWindow (bank : Nat)
  /-- BLANKING_END (R82): what the pull-apart test found, by input. -/
  | blankingEnd (bank : Nat) (legs : List LegRead)
  /-- QOPEN (R86): quad, the break instant as a grid tick, and the sensed facts are the event itself. -/
  | qopen (bank quad tick : Nat)
  /-- QOPEN_CLEAR (R87). -/
  | qopenClear (bank quad : Nat)
  /-- OVR (R88). -/
  | ovr (ch : Nat)
  /-- OVR_CLEAR (R88). -/
  | ovrClear (ch : Nat)
  /-- BDS (R89). -/
  | bds (bank : Nat)
  /-- BDS_END (R89). -/
  | bdsEnd (bank : Nat)
  /-- QILIM (R84). -/
  | qilim (bank quad : Nat)
  /-- ILIM_END (R84). -/
  | ilimEnd (bank quad : Nat)
  /-- QIDEV (R91). -/
  | qidev (bank quad : Nat)
  /-- BANK_FAULT (R90). -/
  | bankFault (bank : Nat)
  /-- ALLOFF (R93). -/
  | alloff (src : Src)
  /-- DRVFLT (R93). -/
  | drvflt
  /-- OCMD_START (R106). -/
  | ocmdStart (src : Src) (port : Nat)
  /-- OCMD_STOP (R106). -/
  | ocmdStop (src : Src) (port : Nat)
  /-- OCMD_CLEAR (R106). -/
  | ocmdClear (src : Src) (port : Nat)
  /-- OCMD_GCLEAR (R106). -/
  | ocmdGclear (src : Src) (grp : Nat)
  /-- BOOST_READY (R96). -/
  | boostReady (port : Nat)
  /-- BOOST (R96). -/
  | boost
  /-- PWM_PERIOD (R98): port, and the period's monitor means, string currents (10 µA) and forward voltages (mV). -/
  | pwmPeriod (port monA monB iA iB vfA vfB : Nat)
  /-- PMFS_LEARN (R99): port, colour (true: B), monitor reading. -/
  | pmfsLearn (port : Nat) (colB : Bool) (reading : Nat)
  /-- MONDEV (R99). -/
  | mondev (port : Nat) (colB : Bool)
  /-- MONDEV_CLEAR (R99). -/
  | mondevClear (port : Nat) (colB : Bool)
  /-- OPWRLIM (R101): measured power in 10 mW units. -/
  | opwrlim (pwr : Nat)
  /-- OPWRLIM_END (R101). -/
  | opwrlimEnd
  /-- PFAULT (R103): port, and what was measured on a string, from which R102's tests take the cause. -/
  | pfault (port : Nat) (string : StringRead)
  /-- PROBE (R104). -/
  | probe (port : Nat)
  /-- DIAG_BLIND (R105). -/
  | diagBlind (port : Nat)
  /-- BLIND_TIMEOUT (R105). -/
  | blindTimeout (port : Nat)
  /-- SELF_CHECK (R125): the domain (3–8 or 10), whether the L0 signature verifies, and what was converted. -/
  | selfCheck (dom : Nat) (good : Bool) (vals : List CheckVal)
  /-- ECO_CHANGE (R117). -/
  | ecoChange (group : Nat)
  /-- SPARE_WRITE (R131). -/
  | spareWrite (src : Src) (bank suse schn : Nat)
  /-- ROTATION_PHASE (R128): the average the phase formed (Z in phase 2, F in phase 3), in code units. -/
  | rotationPhase (bank : Nat) (avg : Int)
  /-- DIE_TEMP_UPDATE (R123): the six die temperatures, 0.01 °C. -/
  | dieTempUpdate (temps : List Int)
  /-- FRESP_COMMIT (R137): the FRESP word. -/
  | frespCommit (src : Src) (bank : Nat) (w : Word)
  /-- PATH_M_OUTPUT (R138): channel, grid instant in ticks of domain time, and the bits of the modulator that serves the channel, in the
  cycles since its path M was last fed, the newest last (R132). -/
  | pathMOutput (ch g : Nat) (bits : List Bool)
  /-- PATH_E_SAMPLE (R140): sample number n, and for local channels 0, 1, … in order the bits of the modulator that serves each since its
  path E was last fed, the newest last. -/
  | pathESample (n : Nat) (bits : List (List Bool))
  /-- ROM_CHECK (R147). -/
  | romCheck (good : Bool)
  /-- TSTALE (R150). -/
  | tstale (ch : Nat)
  /-- EVAL_TEST (R156). -/
  | evalTest (good : Bool)
  /-- LCMD_SAVE (R157). -/
  | lcmdSave (src : Src)
  /-- LCMD_SAVE_DONE (R158). -/
  | lcmdSaveDone
  /-- LCMD_LOAD (R157). -/
  | lcmdLoad (src : Src)
  /-- LCMD_DEFAULT (R157). -/
  | lcmdDefault (src : Src)
  /-- TESTT_WRITE (R157). -/
  | testtWrite (src : Src) (t : Word)
  /-- SEAL (R162): whether SEAL_N is asserted at the commit cycle. -/
  | seal (src : Src) (jumper : Bool)
  /-- SEALED (R163). -/
  | sealed
  /-- SEALFAIL (R163). -/
  | sealfail
  /-- UNSEAL (R164): whether SEAL_N is asserted at the commit cycle. -/
  | unseal (src : Src) (jumper : Bool)
  /-- UNSEALED (R164). -/
  | unsealed
  /-- VERIFY (R172). -/
  | verify (src : Src)
  /-- LID_OPEN (R166). -/
  | lidOpen
  /-- PDIG_CHECK (R165). -/
  | pdigCheck
  /-- ITEM_CHECK (R165): whether every re-evaluated item matched. -/
  | itemCheck (good : Bool)
  /-- METRO_CHECKPOINT (R165). -/
  | metroCheckpoint (ctx : Nat)
  /-- RELOAD_RETRY (R170): whether re-verification of the record's signature succeeds. -/
  | reloadRetry (good : Bool)
  /-- CCMD_HOLD (R192), on the context CSEL shows. -/
  | ccmdHold (src : Src)
  /-- CCMD_RESUME (R192). -/
  | ccmdResume (src : Src)
  /-- CCMD_CLOSE (R179). -/
  | ccmdClose (src : Src)
  /-- DEVICE_CHECKPOINT (R191). -/
  | deviceCheckpoint (ctx : Nat)
  /-- ASMERR (R193). -/
  | asmerr
  /-- ITEM_WRITE (R202). -/
  | itemWrite (ctx : Nat)
  /-- HOLDTO (R202). -/
  | holdto (ctx : Nat)
  /-- DESCRIPTOR_ERROR (R211). -/
  | descriptorError
  /-- POP (R207): the word offset in the pop window, and whether the popped word fails parity. -/
  | pop (src : Src) (off : Nat) (bad : Bool)
  /-- QCMD_FLUSH (R210). -/
  | qcmdFlush (src : Src)
  /-- FLUSHED (R210). -/
  | flushed (q : Nat)
  /-- ITEM_TAKE (R227): context and the indexes of the item's words that fail parity. -/
  | itemTake (ctx : Nat) (bad : List Nat)
  /-- BLOCK_RELEASE (R225): context, and whether the verifying decode mismatched. -/
  | blockRelease (ctx : Nat) (mismatch : Bool)
  /-- CDCMD_ECLEAR (R228). -/
  | cdcmdEclear (src : Src) (eng : Nat)
  /-- CDCMD_ETEST (R228). -/
  | cdcmdEtest (src : Src) (eng : Nat)
  /-- ETEST_DONE (R228). -/
  | etestDone (eng : Nat) (pass : Bool)
  /-- ECTL_BYP (R228): the new BYP bits. -/
  | ectlByp (src : Src) (byp : Nat)
  /-- ENGINE_TEST (R228). -/
  | engineTest (eng : Nat) (pass : Bool)
  /-- CONTEXT_SRAM_ERROR (R238). -/
  | contextSramError
  /-- XCMD_SNAP (R232). -/
  | xcmdSnap (src : Src)
  /-- XCMD_RESTORE (R232). -/
  | xcmdRestore (src : Src)
  /-- XCMD_CLEAR (R232). -/
  | xcmdClear (src : Src)
  /-- DCMD_SUBMIT (R235): DSC0–DSC7, written in one burst with DCMD. -/
  | dcmdSubmit (src : Src) (dsc : List Word)
  /-- DCMD_RESUME (R236). -/
  | dcmdResume (src : Src) (job : Nat)
  /-- DCMD_ABORT (R237). -/
  | dcmdAbort (src : Src) (job : Nat)
  /-- DCMD_RELEASE (R237). -/
  | dcmdRelease (src : Src) (job : Nat)
  /-- JOB_START (R237). -/
  | jobStart (job : Nat)
  /-- DDONE (R237). -/
  | ddone (job : Nat)
  /-- DSTOP (R237). -/
  | dstop (job : Nat)
  /-- DERR (R237): whether a CANVAS read of the job was uncorrectable (code 9 MEM). -/
  | derr (job : Nat) (mem : MemRead)
  /-- ACK (R243): port of arrival (0 east, 1 west) and the message's fields (R310). -/
  | ack (port pos unit ctx seq : Nat)
  /-- RESEND (R316). -/
  | resend (port pos unit ctx seq : Nat)
  /-- EGRESS_SEND (R16): whether a word of the block read from CANVAS is uncorrectable, and at which 8-byte unit. -/
  | egressSend (mem : MemRead)
  /-- GAP_RECORD_STORE (R246). -/
  | gapRecordStore (ctx : Nat)
  /-- SCRUB (R251): corrected words found in the segment, and an uncorrectable word's 8-byte address. -/
  | scrub (corr : Nat) (unc : List Nat)
  /-- CANVAS_FAULT (R255). -/
  | canvasFault
  /-- TCMD_SET (R261). -/
  | tcmdSet (src : Src)
  /-- TCMD_STEP (R261). -/
  | tcmdStep (src : Src)
  /-- TCMD_PSACK (R274). -/
  | tcmdPsack (src : Src)
  /-- INCREMENT (R260): the 36-bit increment written to INCLO and INCHI in one burst. -/
  | increment (src : Src) (inc : Nat)
  /-- SERVO (R262): the frequency-correcting increment, the measured offset in ns, and the measured ε in 10^-12. -/
  | servo (inc : Nat) (ofs : Int) (fofs : Int)
  /-- SOURCE_QUALIFY (R263): source code 1–3. -/
  | sourceQualify (code : Nat)
  /-- SOURCE_LOST (R264). -/
  | sourceLost (code : Nat)
  /-- REFIN_COUNT (R265). -/
  | refinCount (n : Nat)
  /-- PTP_RX (R269): message kind (0 Sync, 1 Delay_Req, 2 Pdelay_Req, 3 Pdelay_Resp) and the latched time in 2^-16 ns. -/
  | ptpRx (kind latch : Nat)
  /-- PTP_TX (R270): the message, latched time in 2^-16 ns, and the frame's incoming correctionField. -/
  | ptpTx (msg : PtpMsg) (latch : Nat) (corr : Int)
  /-- DELAY_EXCHANGE (R273): mean path delay and raw offset of the exchange, 2^-8 ns. -/
  | delayExchange (mpd : Nat) (ofs : Int)
  /-- HOLDOFF (R274): the hold time after a path step ends. -/
  | holdoff
  /-- ASYM_WRITE (R274). -/
  | asymWrite (src : Src) (a : Word)
  /-- XDIFF (R275). -/
  | xdiff
  /-- ECFG_MODE (R268). -/
  | ecfgMode (src : Src) (mode : Nat)
  /-- ETH_LINK_UP (R278). -/
  | ethLinkUp
  /-- ETH_LINK_DOWN (R278). -/
  | ethLinkDown
  /-- LCMD_TRAIN (R300): port 0 east, 1 west. -/
  | lcmdTrain (src : Src) (port : Nat)
  /-- LCMD_STOP (R300). -/
  | lcmdStop (src : Src) (port : Nat)
  /-- LCMD_TEST (R300). -/
  | lcmdTest (src : Src) (port : Nat)
  /-- LCMD_LRETRY (R294). -/
  | lcmdLretry (src : Src) (port : Nat)
  /-- TRAINING_FRAME (R283): link (0 east, 1 west, 2 twin), the lane position it comes in on, and the
  levels of its first 224 symbols, which hold the marker and the control field (R282). -/
  | trainingFrame (link lane : Nat) (sym : List Int)
  /-- FCOK_TIMEOUT (R285). -/
  | fcokTimeout (link : Nat)
  /-- RRDY (R285). -/
  | rrdy (link : Nat)
  /-- LINKUP (R285): the locked lanes of each direction and the duration of the bring-up in µs. -/
  | linkup (link : Nat) (lanes : LaneMasks) (us : Nat)
  /-- TRNFAIL (R285). -/
  | trnfail (link : Nat)
  /-- BRINGUP_RETRY (R285). -/
  | bringupRetry (link : Nat)
  /-- CODEWORD (R287): link, the lane position it comes in on, and the levels of its symbols as received. -/
  | codeword (link lane : Nat) (lv : List Int)
  /-- ZLP_FRAME (R288): link, frame kind, FLEN and the frame's words. -/
  | zlpFrame (link fk flen : Nat) (ws : List Word)
  /-- CAPS (R290). -/
  | caps (link maxf ver : Nat)
  /-- TIME (R299): PART, DIR, REF and the third of a time. -/
  | time (link part dir ref val : Nat)
  /-- TRANSPORT_NOP (R289). -/
  | transportNop (link : Nat)
  /-- LINK_NOP (R291). -/
  | linkNop (link : Nat)
  /-- LACK (R292). -/
  | lack (link csn : Nat)
  /-- NAK (R292). -/
  | nak (link csn : Nat)
  /-- LDROP (R293). -/
  | ldrop (link lanes : Nat) (lost : Bool) (frm : Nat)
  /-- LADD (R294). -/
  | ladd (link lanes : Nat)
  /-- LMASK (R291). -/
  | lmask (link lanes : Nat) (q : Bool)
  /-- LTRN (R294): lane, the tap requests RM1–PCREQ (10 bits) and statuses SM1–SP1 (6 bits). -/
  | ltrn (link lane req stat : Nat)
  /-- CLKLOST (R295). -/
  | clklost (link : Nat)
  /-- CLKFALLBACK (R295). -/
  | clkfallback (link : Nat)
  /-- LNKTO (R292). -/
  | lnkto (link : Nat)
  /-- LANEDN (R293): the lane and the first CSN it failed to deliver. -/
  | lanedn (link lane frm : Nat)
  /-- LANE_READY (R294). -/
  | laneReady (link lane : Nat)
  /-- RETRAIN_TIMEOUT (R294). -/
  | retrainTimeout (link lane : Nat)
  /-- MARGIN (R298): the measured margins of lanes 0–3 in mV. -/
  | margin (link : Nat) (mv : List Nat)
  /-- QUIET (R297). -/
  | quiet (link : Nat)
  /-- QUIET_EXIT (R297). -/
  | quietExit (link : Nat)
  /-- QUIET_RESTORE (R297). -/
  | quietRestore (link : Nat)
  /-- LANE_PLL_FAIL (R300). -/
  | lanePllFail (link : Nat)
  /-- ACMD_INSTALL (R305): whether the staged record's signature verifies. -/
  | acmdInstall (src : Src) (good : Bool)
  /-- ACMD_REWIND (R315). -/
  | acmdRewind (src : Src)
  /-- AUTHORITY_FRAME (R306): port, A1, A2, A3[7:0] and whether the record verifies. -/
  | authorityFrame (port did agen pos : Nat) (rec : RecSig)
  /-- BEACON (R307). -/
  | beacon (port hpos agen hops topog : Nat)
  /-- BEACON_SEND (R307). -/
  | beaconSend
  /-- COLL (R308). -/
  | coll (port hops : Nat) (relay : Bool)
  /-- TOPO (R309). -/
  | topo (port topog pos cause : Nat)
  /-- CREDIT (R317). -/
  | credit (port cred srcs : Nat)
  /-- CREDIT_SEND (R317). -/
  | creditSend (port : Nat)
  /-- TDIST (R311): O_up signed in 2^-8 ns, and hops. -/
  | tdist (port : Nat) (oup : Int) (hops : Nat)
  /-- TDIST_SEND (R311). -/
  | tdistSend (port : Nat)
  /-- REPORT (R313). -/
  | report (port pos unit reason epoch : Nat)
  /-- ISLAND (R321). -/
  | island
  /-- CAND (R322). -/
  | cand (port pos prehops topog : Nat)
  /-- CAND_SEND (R322). -/
  | candSend
  /-- KEEPER (R322). -/
  | keeper
  /-- TKEEP (R322). -/
  | tkeep (port pos topog hops : Nat)
  /-- REJOIN (R323). -/
  | rejoin
  /-- TWL_ISOLATE (R346). -/
  | twlIsolate (src : Src)
  /-- TWL_REJOIN (R346). -/
  | twlRejoin (src : Src)
  /-- TWL_RELEASE (R346). -/
  | twlRelease (src : Src)
  /-- TWL_RESYNC (R336). -/
  | twlResync (src : Src)
  /-- PAIRED (R330): the partner's POS, unit, OSHR, whether its certificate chains to the anchor, its endorsement's
  OGEN (R364), its CAPS maximum, its role, and its legal side. -/
  | paired (pos unit oshr : Nat) (good : Bool) (ogen maxf role : Nat) (legal : PartnerSeal)
  /-- PAIRING_TIMEOUT (R346): the voltages sensed at the heartbeat quads: 4 × bank + quad, and mV. -/
  | pairingTimeout (volts : List (Nat × Nat))
  /-- ROLE (R329). -/
  | role (code unit cgen : Nat)
  /-- ROLE_SEND (R329). -/
  | roleSend
  /-- HEALTH (R335). -/
  | health (w : Word)
  /-- HEALTH_SEND (R335). -/
  | healthSend
  /-- PAUSE (R340). -/
  | pause
  /-- RESUME (R340). -/
  | resume
  /-- PAUSE_EXPIRY (R340). -/
  | pauseExpiry
  /-- FAIL (R341). -/
  | fail (cls : Nat)
  /-- OWN_FAILURE (R341). -/
  | ownFailure (cls : Nat)
  /-- SUMMARY (R334): interval k and, per channel in order, N and mean raw code. -/
  | summary (k : Nat) (chans : List (Nat × Int))
  /-- SUMMARY_SEND (R334). -/
  | summarySend (k : Nat)
  /-- CHECKPOINT_CUT (R336). -/
  | checkpointCut
  /-- CHECKPOINT_FRAME (R337). -/
  | checkpointFrame (f : CkFrame)
  /-- TWIN_LINK_LOST (R328). -/
  | twinLinkLost
  /-- HBVIOL (R340). -/
  | hbviol
  /-- TAKEOVER (R343). -/
  | takeover
  /-- FOREIGN (R345). -/
  | foreign
  /-- PCMD_RESTART (R352). -/
  | pcmdRestart (src : Src) (proc : Nat)
  /-- WATCHDOG (R399). -/
  | watchdog (proc : Nat)
  /-- SENSOR_SAMPLE (R353): die temperatures, rails in mV, trunk (voltage, current) per port, moisture. -/
  | sensorSample (temps : List Int) (rails : List Nat) (ve ie vw iw moist : Nat)
  /-- SESSION_OPEN (R358): the path and the message. -/
  | sessionOpen (path : Path) (m : OpenMsg)
  /-- CONFIRM (R358). -/
  | confirm (sid : Nat) (good : Bool)
  /-- SESSFAIL (R358). -/
  | sessfail (sid : Nat)
  /-- SUBSCRIBE (R429): page and the [15:8] value. -/
  | subscribe (sid tseq page val : Nat)
  /-- KEEP_ALIVE (R360). -/
  | keepAlive (sid tseq : Nat)
  /-- CLOSE (R360). -/
  | close (sid tseq : Nat)
  /-- SESSION_TIMEOUT (R361). -/
  | sessionTimeout (sid : Nat)
  /-- SCMD_INSTALL (R356). -/
  | scmdInstall (src : Src)
  /-- SCMD_ENDORSE (R357). -/
  | scmdEndorse (src : Src) (good : Bool)
  /-- SCMD_TRANSFER (R357). -/
  | scmdTransfer (src : Src) (good : Bool)
  /-- SCMD_RELEASE (R356). -/
  | scmdRelease (src : Src)
  /-- OWNCHG (R356). -/
  | ownchg
  /-- SCMD_STREAM (R363). -/
  | scmdStream (src : Src)
  /-- SECRET_EXPIRY (R363). -/
  | secretExpiry
  /-- SCMD_CLOSE (R370). -/
  | scmdClose (src : Src) (sid : Nat)
  /-- SCMD_MKCHAL (R365). -/
  | scmdMkchal (src : Src)
  /-- SCMD_MKUNLOCK (R366): whether the token's signature verifies. -/
  | scmdMkunlock (src : Src) (good : Bool)
  /-- SCMD_RETREC (R367). -/
  | scmdRetrec (src : Src)
  /-- UCMD_OPEN (R377): ULEN, written in the same burst. -/
  | ucmdOpen (src : Src) (ulen : Nat)
  /-- UCMD_CHECK (R378). -/
  | ucmdCheck (src : Src)
  /-- CHECK_DONE (R378). -/
  | checkDone (facts : CheckFacts)
  /-- UCMD_INSTALL (R380). -/
  | ucmdInstall (src : Src)
  /-- UCMD_CLOSE (R377). -/
  | ucmdClose (src : Src)
  /-- REGION_ERASED (R380). -/
  | regionErased (proc : Nat)
  /-- CONTAINER_WRITTEN (R380). -/
  | containerWritten (proc : Nat)
  /-- READBACK (R380): whether the region equals the buffer. -/
  | readback (proc : Nat) (good : Bool)
  /-- BOOT (R380): whether the loader's checks pass, and the digest of the image that starts. -/
  | boot (proc : Nat) (found : BootFacts) (swdig : List Word)
  /-- ATTACH (R372): whether the port runs at high speed. -/
  | attach (hs : Bool)
  /-- DETACH (R372). -/
  | detach
  /-- SUPPLY_SAMPLE (R391): V_IN in 10 mV, intake current in mA. -/
  | supplySample (v i : Nat)
  /-- LEVEL_STEP_UP (R391). -/
  | levelStepUp
  /-- XCHG (R392). -/
  | xchg
  /-- UVLO (R394). -/
  | uvlo
  /-- POWER_ON (R404), and what it finds. -/
  | powerOn (found : PowerFacts)
  /-- RST_N (R399). -/
  | rstN
  /-- PLL_LOSS (R399): 0 CCLK, 1 sample PLL, 2 XCLK. -/
  | pllLoss (pll : Nat)
  /-- RAIL (R398): rail index 0–11. -/
  | rail (i : Nat)
  /-- PORTCHG (R388): port and whether its voltage is above 30.0 V. -/
  | portchg (port : Nat) (above : Bool)
  /-- INRUSH_END (R388). -/
  | inrushEnd (port : Nat)
  /-- PTOC (R390). -/
  | ptoc
  /-- PT_PROBE (R390): the far signature's resistance in Ω. -/
  | ptProbe (ohms : Nat)
  /-- PDEN_WRITE (R396): the PDEN word. -/
  | pdenWrite (src : Src) (w : Word)
  /-- DOMAIN_POWER_GOOD (R397). -/
  | domainPowerGood (dom : Nat)
  /-- SUCMD_SAVE (R401). -/
  | sucmdSave (src : Src)
  /-- SUCMD_SAVE_DONE (R401). -/
  | sucmdSaveDone
  /-- SUCMD_CLEAR (R401). -/
  | sucmdClear (src : Src)
  /-- REARM (R402). -/
  | rearm
  /-- SUDONE (R404): time since t0 in ms. -/
  | sudone (ms : Nat)
  /-- ANNOUNCE (R263): the clockIdentity of the master the best master clock algorithm now chooses. -/
  | announce (id : Nat)
  /-- HBTO_EXPIRY (R314): port, and whether it is the collector (true) or the head (false) that went unheard. -/
  | hbtoExpiry (port : Nat) (coll : Bool)
  /-- HOST_CONFIGURED (R386). -/
  | hostConfigured (on : Bool)
  /-- LCMD_LOAD_DONE (R158). -/
  | lcmdLoadDone
  /-- VERIFY_DONE (R172). -/
  | verifyDone
  deriving DecidableEq, Repr

end Sys2Proof
end

