-- ==== Sys2Proof/Decode.lean ====
section
/-! DEFINITION. Decoding of the opcode table's words. No row of spec/opcode_table.json gives bits (its commands are window
transactions, frames, link messages and events), so no word spells a command. -/

namespace Sys2Proof

/-- The command that `nbits` bits `w` spell by the table: none, since no row gives bits. -/
def decodeTableWord (_nbits _w : Nat) : Option Instr := none

end Sys2Proof
end

