-- ==== Sys2Proof/Config.lean ====
section
/-! DEFINITION. What one hub has fixed and what the spec leaves open: constants without a body, so that no proof can see a value.
Digests, tags, keys and random words are here too: the spec names the algorithm (SHA-384, AES-256-GMAC, HKDF, ECDSA) and the
model uses only which words go in. -/

namespace Sys2Proof.Config

/-- SHA-384 over words: 12 words (R165, R171, R379, …). Uninterpreted. -/
opaque sha384 : List Word → List Word

/-- HKDF-SHA-384 (R22, R358, R363): input key material and salt as words, info as bytes. Uninterpreted. -/
opaque hkdf : (ikm salt : List Word) → (info : List Nat) → List Word

/-- AES-256-GMAC (R187): key, 96-bit nonce, additional authenticated data. Uninterpreted. -/
opaque gmac : (key nonce aad : List Word) → List Word

/-- The public key of the hub's `n`-th ephemeral P-384 key pair, and the ECDH secret of that pair with a requester's public key (R22,
R358). Uninterpreted. -/
opaque ephKey : Nat → List Word
opaque ecdh : (n : Nat) → (far : List Word) → List Word

/-- The ECDH secret of the device key pair, named by its public key, with another public key (R375). Uninterpreted. -/
opaque deviceEcdh : (device far : List Word) → List Word

/-- The certificate the maker signs at factory test over the device public key, the serial number and the ordering code (R355).
Uninterpreted. -/
opaque makerCert : (key : List Word) → (serial code : Nat) → List Word

/-- AES-256-GCM: ciphertext and 4-word tag of a plaintext (R360). Uninterpreted. -/
opaque gcmSeal : (key nonce aad plain : List Word) → List Word

/-- A 96-byte signature under the device key or the metrology key (R165, R191, R367). Uninterpreted. -/
opaque signature : (key : Nat) → List Word → List Word

/-- GMAC tag of a twin frame under the twin session key (R330, R334, R336). Uninterpreted. -/
opaque twinTag : (key words : List Word) → List Word

/-- The `n`-th free word the hub draws from its random source (R363, R365) or leaves open. -/
opaque freeWord : Nat → BitVec 32

/-- A tap of the interpolator's ROM (R71): phase 0–256 and source sample, 0 the newest. -/
opaque interpRom : (phase tap : Nat) → Int

/-- A coefficient of a path M response at full power (R136), and of its economy set (R139) at a CICD: response code and tap; the spec states
what the responses do and not their coefficients. -/
opaque firRom : (code : Nat) → (tap : Nat) → Int
opaque ecoRom : (code cicd : Nat) → (tap : Nat) → Int

/-- A coefficient of path E's half-band FIR (R140, R139). -/
opaque halfRom : (eco : Bool) → (tap : Nat) → Int

/-- The scale of the FIR coefficients: unity is 2^(`romScale` + 2). -/
opaque romScale : Nat

/-- The argument field of a general-log entry, which R354 names and does not define. -/
opaque logArg : Nat → BitVec 24

/-- Log code of a background result that is not accepted (R129), which R354 does not number. -/
opaque codeBackground : BitVec 16

/-- Log code of a modulator that fails the self-check (R125). -/
opaque codeSelfCheck : BitVec 16

/-- Log codes of a session refused at OPEN, of a session closed, and of a loader check that fails, which R354 and R380 do not
number. -/
opaque codeRefused : BitVec 16
opaque codeClosed : BitVec 16
opaque codeBoot : BitVec 16

end Sys2Proof.Config
end

