-- ==== Sys2Proof/Machine/Tbl.lean ====
section
/-! DEFINITION. Sparse tables: a list of (key, value) pairs in one canonical form, keys strictly rising and no entry equal to
what an unlisted key reads as. The register file, the CANVAS bytes and the per-instance records of the state are such tables. -/

namespace Sys2Proof.Machine

/-- What key `k` reads as, where an unlisted key reads as `d`. -/
def tget {V : Type} : List (Nat × V) → Nat → V → V
  | [], _, d => d
  | (k', v) :: t, k, d => if k = k' then v else tget t k d

/-- Put an entry at its place in the rising order of keys. -/
def tins {V : Type} (k : Nat) (v : V) : List (Nat × V) → List (Nat × V)
  | [] => [(k, v)]
  | (k', v') :: t => if k < k' then (k, v) :: (k', v') :: t else (k', v') :: tins k v t

/-- The table without key `k`. -/
def terase {V : Type} (k : Nat) : List (Nat × V) → List (Nat × V)
  | [] => []
  | (k', v) :: t => if k = k' then terase k t else (k', v) :: terase k t

/-- Write `v` at `k` in a table whose unlisted key `k` reads as `d`: writing `d` removes the entry. -/
def tset {V : Type} [DecidableEq V] (t : List (Nat × V)) (k : Nat) (v d : V) : List (Nat × V) :=
  if v = d then terase k t else tins k v (terase k t)

/-- Keys strictly rising. -/
def rising {V : Type} : List (Nat × V) → Bool
  | [] => true
  | [_] => true
  | (k, _) :: (k', v') :: t => decide (k < k') && rising ((k', v') :: t)

end Sys2Proof.Machine
end

