-- ==== Sys2Proof/Machine/RegTab.lean ====
section
/-! DEFINITION. The register window's tables, page by page, as the register tables of the page chapters give them (R32, R35, R56,
R73, R91, R93, R110–R112, R148, R157, R172, R194, R212, R233, R239, R256, R277, R278, R301, R325, R350, R368–R370, R385,
R386, R406, R407): every register's offset, its fields with type and reset value, and a name for every field. -/

namespace Sys2Proof.Machine

/-- Field types (R39). A field the spec types RO, WO, … ; reserved bits have no entry (R40). -/
inductive FTy where
  | rw | ro | w1c | wo | rwl | rwe
  deriving DecidableEq, Repr

/-- The legal set of a field's written value, where it stands in the field's own table row (R45): an interval (RANGE outside),
everything outside an interval (RANGE inside), a maximum that is a resource (SIZE above), only 0 (RANGE otherwise), or a finite
binary32 (RANGE otherwise, R158). -/
inductive Chk where
  | any
  | between (lo hi : Nat)
  | outside (lo hi : Nat)
  | size (max : Nat)
  | clear
  | finite
  deriving DecidableEq, Repr

/-- Which selector register chooses the instance a register of a page shows (R28, R61, R157, R193, R212, R233, R239, R256, …). -/
inductive Sel where
  | none | schEntry | linCh | stmCtx | queue | ctxSeg | cdcJob | nmap | cnvCtx | lane | l0 | updSeg
  deriving DecidableEq, Repr

/-- One field of a register: type, bit range, reset value, legal set. -/
structure FieldDef where
  ty : FTy
  hi : Nat
  lo : Nat
  rst : Nat := 0
  chk : Chk := .any
  deriving DecidableEq, Repr

/-- One register of a page. -/
structure RegDef where
  off : Nat
  sel : Sel
  fields : List FieldDef
  deriving DecidableEq, Repr

/-- The identity of one stored field: page number, byte offset, instance, bit range, and the value it has at reset. -/
structure Fld where
  page : Nat
  off : Nat
  idx : Nat
  hi : Nat
  lo : Nat
  rst : Nat
  deriving DecidableEq, Repr

/-- The number of bits of a field. -/
def Fld.width (f : Fld) : Nat := f.hi - f.lo + 1

/-- A field's key in the register file. -/
def Fld.code (f : Fld) : Nat := ((f.page * 4096 + f.off) * 16384 + f.idx) * 32 + f.lo

/-- Page number of bank `n`: BNK[n] is 0x010 + n (R91); bank 48 is OBK, in page OPT (R112). -/
def bankPage (n : Nat) : Nat := if n = 48 then 0x44 else 0x10 + n

/-- Offset of a bank register: OBK registers lie at 0x400 plus the BNK offset (R112). -/
def bankOff (n off : Nat) : Nat := if n = 48 then 0x400 + off else off

/-- Reset allocation of the queue RAM (R200). -/
def queBaseRst (q : Nat) : Nat := if q ≤ 63 then 16 * (q - 1) else 1008 + 4 * (q - 64)
def queDepthRst (q : Nat) : Nat := if q ≤ 63 then 16 else 4

/-- Reset of COEF[k]: the identity set has c_10 = 1.0 (R157). -/
def coefRst (k : Nat) : Nat := if k = 4 then 0x3F800000 else 0

namespace DEV
def XREJ_REASON : Fld := ⟨0x0, 0x40, 0, 31, 24, 0⟩
def XREJ_SRC : Fld := ⟨0x0, 0x40, 0, 19, 16, 0⟩
def XREJ_PAGE : Fld := ⟨0x0, 0x40, 0, 11, 0, 0⟩
def XREJCNT_COUNT : Fld := ⟨0x0, 0x44, 0, 15, 0, 0⟩
def SERHI_SER : Fld := ⟨0x0, 0x48, 0, 15, 0, 0⟩
def SERLO_SER : Fld := ⟨0x0, 0x4c, 0, 31, 0, 0⟩
def ORDC_SREV : Fld := ⟨0x0, 0x50, 0, 31, 24, 1⟩
def ORDC_CODE : Fld := ⟨0x0, 0x50, 0, 7, 0, 2⟩
def MFGD_YEAR : Fld := ⟨0x0, 0x54, 0, 31, 16, 0⟩
def MFGD_MON : Fld := ⟨0x0, 0x54, 0, 15, 8, 0⟩
def MFGD_DAY : Fld := ⟨0x0, 0x54, 0, 7, 0, 0⟩
def DSTAT_MAKER : Fld := ⟨0x0, 0x58, 0, 1, 1, 0⟩
def DSTAT_OWNED : Fld := ⟨0x0, 0x58, 0, 0, 0, 0⟩
def UPTM_SEC : Fld := ⟨0x0, 0x5c, 0, 31, 0, 0⟩
/-- The block registers of page DEV, in offset order. -/
def regs : List RegDef :=
  [⟨0x40, .none, [⟨.ro, 31, 24, 0, .any⟩, ⟨.ro, 19, 16, 0, .any⟩, ⟨.ro, 11, 0, 0, .any⟩]⟩,
   ⟨0x44, .none, [⟨.rw, 15, 0, 0, .clear⟩]⟩,
   ⟨0x48, .none, [⟨.ro, 15, 0, 0, .any⟩]⟩,
   ⟨0x4c, .none, [⟨.ro, 31, 0, 0, .any⟩]⟩,
   ⟨0x50, .none, [⟨.ro, 31, 24, 1, .any⟩, ⟨.ro, 7, 0, 2, .any⟩]⟩,
   ⟨0x54, .none, [⟨.ro, 31, 16, 0, .any⟩, ⟨.ro, 15, 8, 0, .any⟩, ⟨.ro, 7, 0, 0, .any⟩]⟩,
   ⟨0x58, .none, [⟨.ro, 1, 1, 0, .any⟩, ⟨.ro, 0, 0, 0, .any⟩]⟩,
   ⟨0x5c, .none, [⟨.ro, 31, 0, 0, .any⟩]⟩]
end DEV

namespace PWR
def SUCMD_OP : Fld := ⟨0x1, 0x40, 0, 3, 0, 0⟩
def PDEN_EN : Fld := ⟨0x1, 0x44, 0, 16, 2, 0x7fff⟩
def PDEN_AONM : Fld := ⟨0x1, 0x44, 0, 1, 0, 3⟩
def PDST_PG : Fld := ⟨0x1, 0x48, 0, 16, 0, 0x1ffff⟩
def AFEMD_ECO : Fld := ⟨0x1, 0x4c, 0, 5, 0, 0⟩
def VIN_I : Fld := ⟨0x1, 0x50, 0, 31, 16, 0⟩
def VIN_V : Fld := ⟨0x1, 0x50, 0, 15, 0, 0⟩
def SAGL_SAG1 : Fld := ⟨0x1, 0x54, 0, 31, 16, 0x1b8⟩
def SAGL_SAG2 : Fld := ⟨0x1, 0x54, 0, 15, 0, 0x19a⟩
def SLVL_LEVEL : Fld := ⟨0x1, 0x58, 0, 1, 0, 0⟩
def SAGCNT_N2 : Fld := ⟨0x1, 0x5c, 0, 31, 16, 0⟩
def SAGCNT_N1 : Fld := ⟨0x1, 0x5c, 0, 15, 0, 0⟩
def PTCFG_SRC : Fld := ⟨0x1, 0x60, 0, 2, 1, 0⟩
def PTCFG_EN : Fld := ⟨0x1, 0x60, 0, 0, 0, 1⟩
def PTST_I : Fld := ⟨0x1, 0x64, 0, 31, 16, 0⟩
def PTST_OC : Fld := ⟨0x1, 0x64, 0, 3, 3, 0⟩
def PTST_DETOK : Fld := ⟨0x1, 0x64, 0, 2, 2, 0⟩
def PTST_DIR : Fld := ⟨0x1, 0x64, 0, 1, 0, 0⟩
def PORTST_ILIM (p : Nat) : Fld := ⟨0x1, 0x68, 0, (4 * p + 2), (4 * p + 2), 0⟩
def PORTST_INR (p : Nat) : Fld := ⟨0x1, 0x68, 0, (4 * p + 1), (4 * p + 1), 0⟩
def PORTST_PRES (p : Nat) : Fld := ⟨0x1, 0x68, 0, (4 * p + 0), (4 * p + 0), 0⟩
def LASTR_NRST : Fld := ⟨0x1, 0x6c, 0, 31, 16, 0⟩
def LASTR_CAUSE : Fld := ⟨0x1, 0x6c, 0, 3, 0, 0⟩
def SUCFG_REARM : Fld := ⟨0x1, 0x70, 0, 1, 1, 0⟩
def SUCFG_AUTO : Fld := ⟨0x1, 0x70, 0, 0, 0, 0⟩
def SUST_SUT : Fld := ⟨0x1, 0x74, 0, 31, 16, 0⟩
def SUST_VALID : Fld := ⟨0x1, 0x74, 0, 0, 0, 0⟩
/-- The block registers of page PWR, in offset order. -/
def regs : List RegDef :=
  [⟨0x40, .none, [⟨.wo, 3, 0, 0, .any⟩]⟩,
   ⟨0x44, .none, [⟨.rw, 16, 2, 0x7fff, .any⟩, ⟨.ro, 1, 0, 3, .any⟩]⟩,
   ⟨0x48, .none, [⟨.ro, 16, 0, 0x1ffff, .any⟩]⟩,
   ⟨0x4c, .none, [⟨.rwl, 5, 0, 0, .any⟩]⟩,
   ⟨0x50, .none, [⟨.ro, 31, 16, 0, .any⟩, ⟨.ro, 15, 0, 0, .any⟩]⟩,
   ⟨0x54, .none, [⟨.rw, 31, 16, 0x1b8, .any⟩, ⟨.rw, 15, 0, 0x19a, .any⟩]⟩,
   ⟨0x58, .none, [⟨.ro, 1, 0, 0, .any⟩]⟩,
   ⟨0x5c, .none, [⟨.rw, 31, 16, 0, .clear⟩, ⟨.rw, 15, 0, 0, .clear⟩]⟩,
   ⟨0x60, .none, [⟨.rw, 2, 1, 0, .between 0 2⟩, ⟨.rw, 0, 0, 1, .any⟩]⟩,
   ⟨0x64, .none, [⟨.ro, 31, 16, 0, .any⟩, ⟨.ro, 3, 3, 0, .any⟩, ⟨.ro, 2, 2, 0, .any⟩, ⟨.ro, 1, 0, 0, .any⟩]⟩,
   ⟨0x68, .none, [⟨.ro, 2, 2, 0, .any⟩, ⟨.ro, 6, 6, 0, .any⟩, ⟨.ro, 1, 1, 0, .any⟩, ⟨.ro, 5, 5, 0, .any⟩, ⟨.ro, 0, 0, 0, .any⟩, ⟨.ro, 4, 4, 0, .any⟩]⟩,
   ⟨0x6c, .none, [⟨.ro, 31, 16, 0, .any⟩, ⟨.ro, 3, 0, 0, .any⟩]⟩] ++
  [⟨0x70, .none, [⟨.rw, 1, 1, 0, .any⟩, ⟨.rw, 0, 0, 0, .any⟩]⟩,
   ⟨0x74, .none, [⟨.ro, 31, 16, 0, .any⟩, ⟨.ro, 0, 0, 0, .any⟩]⟩]
end PWR

namespace CLK
def XSTAT_XDIV : Fld := ⟨0x2, 0x40, 0, 1, 0, 0⟩
def XFORCE_MIN : Fld := ⟨0x2, 0x44, 0, 1, 0, 0⟩
def PLLST_TWN : Fld := ⟨0x2, 0x48, 0, 7, 7, 0⟩
def PLLST_TKW : Fld := ⟨0x2, 0x48, 0, 6, 6, 0⟩
def PLLST_TKE : Fld := ⟨0x2, 0x48, 0, 5, 5, 0⟩
def PLLST_ETH : Fld := ⟨0x2, 0x48, 0, 4, 4, 0⟩
def PLLST_DRAM : Fld := ⟨0x2, 0x48, 0, 3, 3, 0⟩
def PLLST_XCK : Fld := ⟨0x2, 0x48, 0, 2, 2, 0⟩
def PLLST_SMP : Fld := ⟨0x2, 0x48, 0, 1, 1, 0⟩
def PLLST_CCK : Fld := ⟨0x2, 0x48, 0, 0, 0, 0⟩
def MPHE_E : Fld := ⟨0x2, 0x4c, 0, 31, 0, 0⟩
def XCNT_N : Fld := ⟨0x2, 0x50, 0, 15, 0, 0⟩
/-- The block registers of page CLK, in offset order. -/
def regs : List RegDef :=
  [⟨0x40, .none, [⟨.ro, 1, 0, 0, .any⟩]⟩,
   ⟨0x44, .none, [⟨.rw, 1, 0, 0, .between 0 2⟩]⟩,
   ⟨0x48, .none, [⟨.ro, 7, 7, 0, .any⟩, ⟨.ro, 6, 6, 0, .any⟩, ⟨.ro, 5, 5, 0, .any⟩, ⟨.ro, 4, 4, 0, .any⟩, ⟨.ro, 3, 3, 0, .any⟩, ⟨.ro, 2, 2, 0, .any⟩, ⟨.ro, 1, 1, 0, .any⟩, ⟨.ro, 0, 0, 0, .any⟩]⟩,
   ⟨0x4c, .none, [⟨.ro, 31, 0, 0, .any⟩]⟩,
   ⟨0x50, .none, [⟨.rw, 15, 0, 0, .clear⟩]⟩]
end CLK

namespace SCH
def CMD_OP : Fld := ⟨0x3, 0x40, 0, 3, 0, 0⟩
def SSTAT_AUTH : Fld := ⟨0x3, 0x44, 0, 31, 30, 0⟩
def SSTAT_EPV : Fld := ⟨0x3, 0x44, 0, 25, 25, 0⟩
def SSTAT_LIVE : Fld := ⟨0x3, 0x44, 0, 24, 24, 0⟩
def SSTAT_SHVAL : Fld := ⟨0x3, 0x44, 0, 20, 20, 0⟩
def SSTAT_EPBHND : Fld := ⟨0x3, 0x44, 0, 16, 16, 0⟩
def SSTAT_NACT : Fld := ⟨0x3, 0x44, 0, 8, 0, 0⟩
def EPOCHL_EP : Fld := ⟨0x3, 0x48, 0, 31, 0, 0⟩
def EPOCHS_EP : Fld := ⟨0x3, 0x4c, 0, 31, 0, 0⟩
def BASELL_SEC : Fld := ⟨0x3, 0x50, 0, 31, 0, 0⟩
def BASELH_SEC : Fld := ⟨0x3, 0x54, 0, 15, 0, 0⟩
def BASESL_SEC : Fld := ⟨0x3, 0x58, 0, 31, 0, 0⟩
def BASESH_SEC : Fld := ⟨0x3, 0x5c, 0, 15, 0, 0⟩
def EIDX_SEL : Fld := ⟨0x3, 0x60, 0, 8, 8, 0⟩
def EIDX_IDX : Fld := ⟨0x3, 0x60, 0, 7, 0, 0⟩
def ENT (k e : Nat) : Fld := ⟨0x3, (0x64 + 4 * k), e, 31, 0, 0⟩
def STOPLO_PT : Fld := ⟨0x3, 0x7c, 0, 31, 0, 0⟩
def STOPHI_PT : Fld := ⟨0x3, 0x80, 0, 31, 0, 0⟩
def LEADMN_MS : Fld := ⟨0x3, 0x84, 0, 15, 0, 0x32⟩
def TRGCNT_EXTND : Fld := ⟨0x3, 0x88, 0, 31, 16, 0⟩
def TRGCNT_LOST : Fld := ⟨0x3, 0x88, 0, 15, 0, 0⟩
def LASTS_SEC : Fld := ⟨0x3, 0x8c, 0, 31, 0, 0⟩
def LASTN_NS : Fld := ⟨0x3, 0x90, 0, 29, 0, 0⟩
def ENTERR_IDX : Fld := ⟨0x3, 0x94, 0, 8, 0, 0⟩
/-- The block registers of page SCH, in offset order. -/
def regs : List RegDef :=
  [⟨0x40, .none, [⟨.wo, 3, 0, 0, .any⟩]⟩,
   ⟨0x44, .none, [⟨.ro, 31, 30, 0, .any⟩, ⟨.ro, 25, 25, 0, .any⟩, ⟨.ro, 24, 24, 0, .any⟩, ⟨.ro, 20, 20, 0, .any⟩, ⟨.ro, 16, 16, 0, .any⟩, ⟨.ro, 8, 0, 0, .any⟩]⟩,
   ⟨0x48, .none, [⟨.ro, 31, 0, 0, .any⟩]⟩,
   ⟨0x4c, .none, [⟨.rw, 31, 0, 0, .any⟩]⟩,
   ⟨0x50, .none, [⟨.ro, 31, 0, 0, .any⟩]⟩,
   ⟨0x54, .none, [⟨.ro, 15, 0, 0, .any⟩]⟩,
   ⟨0x58, .none, [⟨.rw, 31, 0, 0, .any⟩]⟩,
   ⟨0x5c, .none, [⟨.rw, 15, 0, 0, .any⟩]⟩,
   ⟨0x60, .none, [⟨.rw, 8, 8, 0, .any⟩, ⟨.rw, 7, 0, 0, .any⟩]⟩] ++
  (List.range 6).map (fun k => ⟨0x64 + 4 * k, .schEntry, [⟨.rw, 31, 0, 0, .any⟩]⟩) ++
  [⟨0x7c, .none, [⟨.rw, 31, 0, 0, .any⟩]⟩,
   ⟨0x80, .none, [⟨.rw, 31, 0, 0, .any⟩]⟩,
   ⟨0x84, .none, [⟨.rw, 15, 0, 0x32, .between 10 10000⟩]⟩,
   ⟨0x88, .none, [⟨.ro, 31, 16, 0, .any⟩, ⟨.rw, 15, 0, 0, .clear⟩]⟩,
   ⟨0x8c, .none, [⟨.ro, 31, 0, 0, .any⟩]⟩,
   ⟨0x90, .none, [⟨.ro, 29, 0, 0, .any⟩]⟩,
   ⟨0x94, .none, [⟨.ro, 8, 0, 0, .any⟩]⟩]
end SCH

namespace AXS
def MCFG_MBW : Fld := ⟨0x4, 0x40, 0, 9, 8, 0⟩
def MCFG_MEN : Fld := ⟨0x4, 0x40, 0, 0, 0, 0⟩
def MOFS_OFS : Fld := ⟨0x4, 0x44, 0, 31, 0, 0⟩
def MPER_PER : Fld := ⟨0x4, 0x48, 0, 31, 0, 0⟩
def MPH_PH : Fld := ⟨0x4, 0x4c, 0, 31, 0, 0⟩
def MCYC_CYC : Fld := ⟨0x4, 0x50, 0, 31, 0, 0⟩
def ASTAT_SSIOK : Fld := ⟨0x4, 0x54, 0, 8, 8, 0⟩
def ASTAT_ZSEEN : Fld := ⟨0x4, 0x54, 0, 6, 6, 0⟩
def ASTAT_EREV : Fld := ⟨0x4, 0x54, 0, 5, 5, 0⟩
def ASTAT_MLOST : Fld := ⟨0x4, 0x54, 0, 1, 1, 0⟩
def ASTAT_MLOCK : Fld := ⟨0x4, 0x54, 0, 0, 0, 0⟩
def ECFG_MTB : Fld := ⟨0x4, 0x58, 0, 28, 24, 0⟩
def ECFG_SSIB : Fld := ⟨0x4, 0x58, 0, 21, 16, 0⟩
def ECFG_ZEN : Fld := ⟨0x4, 0x58, 0, 3, 3, 0⟩
def ECFG_DIR : Fld := ⟨0x4, 0x58, 0, 2, 2, 0⟩
def ECFG_SRC : Fld := ⟨0x4, 0x58, 0, 1, 0, 0⟩
def ECPTLO_CPT : Fld := ⟨0x4, 0x5c, 0, 31, 0, 0⟩
def ECPTHI_CPT32 : Fld := ⟨0x4, 0x60, 0, 0, 0, 0⟩
def ECNT_CNT : Fld := ⟨0x4, 0x64, 0, 31, 0, 0⟩
def ETRN_TRN : Fld := ⟨0x4, 0x68, 0, 31, 0, 0⟩
def EDLY_DLY : Fld := ⟨0x4, 0x6c, 0, 15, 0, 0⟩
def IDXERR_ERR : Fld := ⟨0x4, 0x70, 0, 31, 0, 0⟩
def IDXTOL_TOL : Fld := ⟨0x4, 0x74, 0, 15, 0, 4⟩
def SSICFG_DIV : Fld := ⟨0x4, 0x78, 0, 15, 0, 0x7b⟩
def SSIPER_PER : Fld := ⟨0x4, 0x7c, 0, 31, 0, 0x266⟩
def PPSCFG_EDGE : Fld := ⟨0x4, 0x80, 0, 1, 1, 0⟩
def PPSCFG_PEN : Fld := ⟨0x4, 0x80, 0, 0, 0, 0⟩
def PPSNS_NS : Fld := ⟨0x4, 0x84, 0, 29, 0, 0⟩
def TRGCFG_OWID (k : Nat) : Fld := ⟨0x4, (0x90 + 4 * k), 0, 31, 24, 0⟩
def TRGCFG_OENT (k : Nat) : Fld := ⟨0x4, (0x90 + 4 * k), 0, 15, 8, 0⟩
def TRGCFG_EDGE (k : Nat) : Fld := ⟨0x4, (0x90 + 4 * k), 0, 3, 2, 0⟩
def TRGCFG_DIR (k : Nat) : Fld := ⟨0x4, (0x90 + 4 * k), 0, 1, 0, 0⟩
def TRGS_SEC (k : Nat) : Fld := ⟨0x4, (0xb0 + 8 * k), 0, 31, 0, 0⟩
def TRGN_NS (k : Nat) : Fld := ⟨0x4, (0xb4 + 8 * k), 0, 29, 0, 0⟩
/-- The block registers of page AXS, in offset order. -/
def regs : List RegDef :=
  [⟨0x40, .none, [⟨.rw, 9, 8, 0, .between 0 2⟩, ⟨.rw, 0, 0, 0, .any⟩]⟩,
   ⟨0x44, .none, [⟨.rw, 31, 0, 0, .any⟩]⟩,
   ⟨0x48, .none, [⟨.ro, 31, 0, 0, .any⟩]⟩,
   ⟨0x4c, .none, [⟨.ro, 31, 0, 0, .any⟩]⟩,
   ⟨0x50, .none, [⟨.ro, 31, 0, 0, .any⟩]⟩,
   ⟨0x54, .none, [⟨.ro, 8, 8, 0, .any⟩, ⟨.ro, 6, 6, 0, .any⟩, ⟨.ro, 5, 5, 0, .any⟩, ⟨.ro, 1, 1, 0, .any⟩, ⟨.ro, 0, 0, 0, .any⟩]⟩,
   ⟨0x58, .none, [⟨.rw, 28, 24, 0, .any⟩, ⟨.rw, 21, 16, 0, .size 32⟩, ⟨.rw, 3, 3, 0, .any⟩, ⟨.rw, 2, 2, 0, .any⟩, ⟨.rw, 1, 0, 0, .between 0 2⟩]⟩,
   ⟨0x5c, .none, [⟨.rw, 31, 0, 0, .any⟩]⟩,
   ⟨0x60, .none, [⟨.rw, 0, 0, 0, .any⟩]⟩,
   ⟨0x64, .none, [⟨.ro, 31, 0, 0, .any⟩]⟩,
   ⟨0x68, .none, [⟨.ro, 31, 0, 0, .any⟩]⟩,
   ⟨0x6c, .none, [⟨.rw, 15, 0, 0, .any⟩]⟩] ++
  [⟨0x70, .none, [⟨.ro, 31, 0, 0, .any⟩]⟩,
   ⟨0x74, .none, [⟨.rw, 15, 0, 4, .any⟩]⟩,
   ⟨0x78, .none, [⟨.rw, 15, 0, 0x7b, .between 62 65535⟩]⟩,
   ⟨0x7c, .none, [⟨.rw, 31, 0, 0x266, .any⟩]⟩,
   ⟨0x80, .none, [⟨.rw, 1, 1, 0, .any⟩, ⟨.rw, 0, 0, 0, .any⟩]⟩,
   ⟨0x84, .none, [⟨.ro, 29, 0, 0, .any⟩]⟩] ++
  (List.range 8).map (fun k => ⟨0x90 + 4 * k, .none, [⟨.rw, 31, 24, 0, .any⟩, ⟨.rw, 15, 8, 0, .any⟩, ⟨.rw, 3, 2, 0, .between 0 2⟩, ⟨.rw, 1, 0, 0, .between 0 2⟩]⟩) ++
  (List.range 8).map (fun k => ⟨0xb0 + 8 * k, .none, [⟨.ro, 31, 0, 0, .any⟩]⟩) ++
  (List.range 8).map (fun k => ⟨0xb4 + 8 * k, .none, [⟨.ro, 29, 0, 0, .any⟩]⟩)
end AXS

namespace EXC
def EXPOW_LOAD : Fld := ⟨0x40, 0x40, 0, 15, 0, 0⟩
def EXLIM_LIM : Fld := ⟨0x40, 0x44, 0, 15, 0, 0x960⟩
def EXMEAS_PWR : Fld := ⟨0x40, 0x48, 0, 15, 0, 0⟩
def EXCMD_ALLOFF : Fld := ⟨0x40, 0x4c, 0, 0, 0, 0⟩
/-- The block registers of page EXC, in offset order. -/
def regs : List RegDef :=
  [⟨0x40, .none, [⟨.ro, 15, 0, 0, .any⟩]⟩,
   ⟨0x44, .none, [⟨.rwl, 15, 0, 0x960, .between 0 2400⟩]⟩,
   ⟨0x48, .none, [⟨.ro, 15, 0, 0, .any⟩]⟩,
   ⟨0x4c, .none, [⟨.wo, 0, 0, 0, .any⟩]⟩]
end EXC

namespace FLT
def RIDX_IDX : Fld := ⟨0x41, 0x40, 0, 3, 0, 0⟩
def RINF0_K : Fld := ⟨0x41, 0x44, 0, 31, 24, 0⟩
def RINF0_L : Fld := ⟨0x41, 0x44, 0, 23, 16, 0⟩
def RINF0_NOTCH : Fld := ⟨0x41, 0x44, 0, 11, 10, 0⟩
def RINF0_PHASE : Fld := ⟨0x41, 0x44, 0, 9, 8, 0⟩
def RINF0_M3DB : Fld := ⟨0x41, 0x44, 0, 7, 7, 0⟩
def RINF1_PBE : Fld := ⟨0x41, 0x48, 0, 31, 16, 0⟩
def RINF1_SBE : Fld := ⟨0x41, 0x48, 0, 15, 0, 0⟩
def RINF2_GD : Fld := ⟨0x41, 0x4c, 0, 31, 16, 0⟩
def RINF2_ATT : Fld := ⟨0x41, 0x4c, 0, 15, 8, 0⟩
def RRATE_RATES : Fld := ⟨0x41, 0x50, 0, 16, 0, 0⟩
def ROMCRC_CRC : Fld := ⟨0x41, 0x54, 0, 31, 0, 0x5d8a31c6⟩
def MACLD_LOAD : Fld := ⟨0x41, 0x58, 0, 15, 0, 0⟩
def SETSEL_CH : Fld := ⟨0x41, 0x5c, 0, 9, 0, 0⟩
def SETRD_REMM : Fld := ⟨0x41, 0x60, 0, 31, 16, 0⟩
def SETRD_REME : Fld := ⟨0x41, 0x60, 0, 15, 8, 0⟩
def SETRD_L : Fld := ⟨0x41, 0x60, 0, 7, 0, 0⟩
def GDLY_TAU : Fld := ⟨0x41, 0x64, 0, 31, 0, 0⟩
def MWLEN_W : Fld := ⟨0x41, 0x68, 0, 31, 0, 0⟩
def PELAT_LAT : Fld := ⟨0x41, 0x6c, 0, 15, 0, 0x44a⟩
/-- The block registers of page FLT, in offset order. -/
def regs : List RegDef :=
  [⟨0x40, .none, [⟨.rw, 3, 0, 0, .any⟩]⟩,
   ⟨0x44, .none, [⟨.ro, 31, 24, 0, .any⟩, ⟨.ro, 23, 16, 0, .any⟩, ⟨.ro, 11, 10, 0, .any⟩, ⟨.ro, 9, 8, 0, .any⟩, ⟨.ro, 7, 7, 0, .any⟩]⟩,
   ⟨0x48, .none, [⟨.ro, 31, 16, 0, .any⟩, ⟨.ro, 15, 0, 0, .any⟩]⟩,
   ⟨0x4c, .none, [⟨.ro, 31, 16, 0, .any⟩, ⟨.ro, 15, 8, 0, .any⟩]⟩,
   ⟨0x50, .none, [⟨.ro, 16, 0, 0, .any⟩]⟩,
   ⟨0x54, .none, [⟨.ro, 31, 0, 0x5d8a31c6, .any⟩]⟩,
   ⟨0x58, .none, [⟨.ro, 15, 0, 0, .any⟩]⟩,
   ⟨0x5c, .none, [⟨.rw, 9, 0, 0, .between 0 783⟩]⟩,
   ⟨0x60, .none, [⟨.ro, 31, 16, 0, .any⟩, ⟨.ro, 15, 8, 0, .any⟩, ⟨.ro, 7, 0, 0, .any⟩]⟩,
   ⟨0x64, .none, [⟨.ro, 31, 0, 0, .any⟩]⟩,
   ⟨0x68, .none, [⟨.ro, 31, 0, 0, .any⟩]⟩,
   ⟨0x6c, .none, [⟨.ro, 15, 0, 0x44a, .any⟩]⟩]
end FLT

namespace LIN
def LSEL_CH : Fld := ⟨0x42, 0x40, 0, 9, 0, 0⟩
def LCFG_LEN (ch : Nat) : Fld := ⟨0x42, 0x44, ch, 31, 31, 0⟩
def LCFG_RAT (ch : Nat) : Fld := ⟨0x42, 0x44, ch, 30, 30, 0⟩
def LCFG_TSRC (ch : Nat) : Fld := ⟨0x42, 0x44, ch, 29, 28, 0⟩
def LCFG_RSCL (ch : Nat) : Fld := ⟨0x42, 0x44, ch, 27, 24, 0⟩
def LCFG_RAGE (ch : Nat) : Fld := ⟨0x42, 0x44, ch, 23, 16, 0⟩
def LCFG_TCH (ch : Nat) : Fld := ⟨0x42, 0x44, ch, 9, 0, 0⟩
def TFIX_T (ch : Nat) : Fld := ⟨0x42, 0x48, ch, 31, 0, 0⟩
def COEF_C (k ch : Nat) : Fld := ⟨0x42, (0x4c + 4 * k), ch, 31, 0, (coefRst k)⟩
def LSTAT_OVF (ch : Nat) : Fld := ⟨0x42, 0xb0, ch, 2, 2, 0⟩
def LSTAT_RATINV (ch : Nat) : Fld := ⟨0x42, 0xb0, ch, 1, 1, 0⟩
def LSTAT_TSTALE (ch : Nat) : Fld := ⟨0x42, 0xb0, ch, 0, 0, 0⟩
def THOLD_MS : Fld := ⟨0x42, 0xb4, 0, 15, 0, 0x3e8⟩
def LLOAD_LOAD : Fld := ⟨0x42, 0xb8, 0, 15, 0, 0⟩
def LNCH_N : Fld := ⟨0x42, 0xbc, 0, 9, 0, 0⟩
def LCMD_OP : Fld := ⟨0x42, 0xc0, 0, 3, 0, 0⟩
def TESTX_X : Fld := ⟨0x42, 0xc4, 0, 31, 0, 0⟩
def TESTT_T : Fld := ⟨0x42, 0xc8, 0, 31, 0, 0⟩
def TESTY_Y : Fld := ⟨0x42, 0xcc, 0, 31, 0, 0⟩
/-- The block registers of page LIN, in offset order. -/
def regs : List RegDef :=
  [⟨0x40, .none, [⟨.rw, 9, 0, 0, .between 0 783⟩]⟩,
   ⟨0x44, .linCh, [⟨.rw, 31, 31, 0, .any⟩, ⟨.rw, 30, 30, 0, .any⟩, ⟨.rw, 29, 28, 0, .between 0 2⟩, ⟨.rw, 27, 24, 0, .between 0 7⟩, ⟨.rw, 23, 16, 0, .any⟩, ⟨.rw, 9, 0, 0, .any⟩]⟩,
   ⟨0x48, .linCh, [⟨.rw, 31, 0, 0, .finite⟩]⟩] ++
  (List.range 24).map (fun k => ⟨0x4c + 4 * k, .linCh, [⟨.rw, 31, 0, coefRst k, .finite⟩]⟩) ++
  [⟨0xb0, .linCh, [⟨.ro, 2, 2, 0, .any⟩, ⟨.ro, 1, 1, 0, .any⟩, ⟨.ro, 0, 0, 0, .any⟩]⟩,
   ⟨0xb4, .none, [⟨.rw, 15, 0, 0x3e8, .between 1 60000⟩]⟩,
   ⟨0xb8, .none, [⟨.ro, 15, 0, 0, .any⟩]⟩,
   ⟨0xbc, .none, [⟨.ro, 9, 0, 0, .any⟩]⟩,
   ⟨0xc0, .none, [⟨.wo, 3, 0, 0, .any⟩]⟩,
   ⟨0xc4, .none, [⟨.rw, 31, 0, 0, .finite⟩]⟩,
   ⟨0xc8, .none, [⟨.rw, 31, 0, 0, .finite⟩]⟩,
   ⟨0xcc, .none, [⟨.ro, 31, 0, 0, .any⟩]⟩]
end LIN

namespace MTR
def MCMD_OP : Fld := ⟨0x43, 0x40, 0, 3, 0, 0⟩
def MDESLO_BANKS : Fld := ⟨0x43, 0x44, 0, 31, 0, 0⟩
def MDESHI_BANKS : Fld := ⟨0x43, 0x48, 0, 16, 0, 0⟩
def MCTXLO_CTX : Fld := ⟨0x43, 0x4c, 0, 31, 1, 0⟩
def MCTXHI_CTX : Fld := ⟨0x43, 0x50, 0, 31, 0, 0⟩
def MSTAT_FCAUSE : Fld := ⟨0x43, 0x54, 0, 31, 28, 0⟩
def MSTAT_NDES : Fld := ⟨0x43, 0x54, 0, 11, 8, 0⟩
def MSTAT_TWMIS : Fld := ⟨0x43, 0x54, 0, 6, 6, 0⟩
def MSTAT_APPR : Fld := ⟨0x43, 0x54, 0, 5, 5, 0⟩
def MSTAT_BRK : Fld := ⟨0x43, 0x54, 0, 4, 4, 0⟩
def MSTAT_EVS : Fld := ⟨0x43, 0x54, 0, 3, 3, 0⟩
def MSTAT_LIDO : Fld := ⟨0x43, 0x54, 0, 2, 2, 0⟩
def MSTAT_SEALN : Fld := ⟨0x43, 0x54, 0, 1, 1, 0⟩
def EVCNT_CNT : Fld := ⟨0x43, 0x58, 0, 31, 0, 0⟩
def TRNUM_NUM : Fld := ⟨0x43, 0x5c, 0, 10, 0, 0⟩
def TRIDX_AGE : Fld := ⟨0x43, 0x60, 0, 9, 0, 0⟩
def TRE (k : Nat) : Fld := ⟨0x43, (0x64 + 4 * k), 0, 31, 0, 0⟩
def PDIG (k : Nat) : Fld := ⟨0x43, (0x84 + 4 * k), 0, 31, 0, 0⟩
def SWVER_MAJ : Fld := ⟨0x43, 0xb4, 0, 31, 24, 0⟩
def SWVER_MIN : Fld := ⟨0x43, 0xb4, 0, 23, 16, 0⟩
def SWVER_BLD : Fld := ⟨0x43, 0xb4, 0, 15, 0, 0⟩
def SWDIG (k : Nat) : Fld := ⟨0x43, (0xb8 + 4 * k), 0, 31, 0, 0⟩
def MKID_ID : Fld := ⟨0x43, 0xe8, 0, 31, 0, 0⟩
def CKCNT_N : Fld := ⟨0x43, 0xec, 0, 31, 0, 0⟩
def MPUB (k : Nat) : Fld := ⟨0x43, (0x100 + 4 * k), 0, 31, 0, 0⟩
/-- The block registers of page MTR, in offset order. -/
def regs : List RegDef :=
  [⟨0x40, .none, [⟨.wo, 3, 0, 0, .any⟩]⟩,
   ⟨0x44, .none, [⟨.rwl, 31, 0, 0, .any⟩]⟩,
   ⟨0x48, .none, [⟨.rwl, 16, 0, 0, .any⟩]⟩,
   ⟨0x4c, .none, [⟨.rwl, 31, 1, 0, .any⟩]⟩,
   ⟨0x50, .none, [⟨.rwl, 31, 0, 0, .any⟩]⟩,
   ⟨0x54, .none, [⟨.ro, 31, 28, 0, .any⟩, ⟨.ro, 11, 8, 0, .any⟩, ⟨.ro, 6, 6, 0, .any⟩, ⟨.ro, 5, 5, 0, .any⟩, ⟨.ro, 4, 4, 0, .any⟩, ⟨.ro, 3, 3, 0, .any⟩, ⟨.ro, 2, 2, 0, .any⟩, ⟨.ro, 1, 1, 0, .any⟩]⟩,
   ⟨0x58, .none, [⟨.ro, 31, 0, 0, .any⟩]⟩,
   ⟨0x5c, .none, [⟨.ro, 10, 0, 0, .any⟩]⟩,
   ⟨0x60, .none, [⟨.rw, 9, 0, 0, .any⟩]⟩] ++
  (List.range 8).map (fun k => ⟨0x64 + 4 * k, .none, [⟨.ro, 31, 0, 0, .any⟩]⟩) ++
  (List.range 12).map (fun k => ⟨0x84 + 4 * k, .none, [⟨.ro, 31, 0, 0, .any⟩]⟩) ++
  [⟨0xb4, .none, [⟨.ro, 31, 24, 0, .any⟩, ⟨.ro, 23, 16, 0, .any⟩, ⟨.ro, 15, 0, 0, .any⟩]⟩] ++
  (List.range 12).map (fun k => ⟨0xb8 + 4 * k, .none, [⟨.ro, 31, 0, 0, .any⟩]⟩) ++
  [⟨0xe8, .none, [⟨.ro, 31, 0, 0, .any⟩]⟩,
   ⟨0xec, .none, [⟨.ro, 31, 0, 0, .any⟩]⟩] ++
  (List.range 24).map (fun k => ⟨0x100 + 4 * k, .none, [⟨.ro, 31, 0, 0, .any⟩]⟩)
end MTR

namespace OPT
def OCMD_PORT : Fld := ⟨0x44, 0x40, 0, 11, 8, 0⟩
def OCMD_OP : Fld := ⟨0x44, 0x40, 0, 3, 0, 0⟩
def OPLIM_LIM : Fld := ⟨0x44, 0x44, 0, 15, 0, 0x320⟩
def OPLOAD_LOAD : Fld := ⟨0x44, 0x48, 0, 15, 0, 0⟩
def OPMEAS_PWR : Fld := ⟨0x44, 0x4c, 0, 15, 0, 0⟩
def BOOST_NEED : Fld := ⟨0x44, 0x50, 0, 31, 16, 0⟩
def BOOST_VOUT : Fld := ⟨0x44, 0x50, 0, 15, 0, 0⟩
def PRB_PER : Fld := ⟨0x44, 0x54, 0, 31, 16, 0x400⟩
def PRB_EN : Fld := ⟨0x44, 0x54, 0, 0, 0, 1⟩
def BLINDMX_SEC : Fld := ⟨0x44, 0x58, 0, 15, 0, 0xa⟩
def DARKTH_TH : Fld := ⟨0x44, 0x5c, 0, 23, 0, 0x8000⟩
def OSHR_SHR : Fld := ⟨0x44, 0x60, 0, 0, 0, 0⟩
def FGST_GRP : Fld := ⟨0x44, 0x64, 0, 7, 1, 0⟩
/-- The block registers of page OPT, in offset order. -/
def regs : List RegDef :=
  [⟨0x40, .none, [⟨.wo, 11, 8, 0, .any⟩, ⟨.wo, 3, 0, 0, .any⟩]⟩,
   ⟨0x44, .none, [⟨.rwl, 15, 0, 0x320, .between 0 800⟩]⟩,
   ⟨0x48, .none, [⟨.ro, 15, 0, 0, .any⟩]⟩,
   ⟨0x4c, .none, [⟨.ro, 15, 0, 0, .any⟩]⟩,
   ⟨0x50, .none, [⟨.ro, 31, 16, 0, .any⟩, ⟨.ro, 15, 0, 0, .any⟩]⟩,
   ⟨0x54, .none, [⟨.rw, 31, 16, 0x400, .between 128 65535⟩, ⟨.rw, 0, 0, 1, .any⟩]⟩,
   ⟨0x58, .none, [⟨.rw, 15, 0, 0xa, .between 1 3600⟩]⟩,
   ⟨0x5c, .none, [⟨.rw, 23, 0, 0x8000, .any⟩]⟩,
   ⟨0x60, .none, [⟨.rwl, 0, 0, 0, .any⟩]⟩,
   ⟨0x64, .none, [⟨.ro, 7, 1, 0, .any⟩]⟩]
end OPT

namespace STM
def CSEL_CTX : Fld := ⟨0x48, 0x40, 0, 5, 0, 1⟩
def CCFG_CEN (c : Nat) : Fld := ⟨0x48, 0x44, c, 31, 31, 0⟩
def CCFG_PATH (c : Nat) : Fld := ⟨0x48, 0x44, c, 30, 30, 0⟩
def CCFG_FPOL (c : Nat) : Fld := ⟨0x48, 0x44, c, 29, 28, 0⟩
def CCFG_AFX (c : Nat) : Fld := ⟨0x48, 0x44, c, 27, 27, 0⟩
def CCFG_CHKF (c : Nat) : Fld := ⟨0x48, 0x44, c, 26, 26, 0⟩
def CCFG_BSLOT (c : Nat) : Fld := ⟨0x48, 0x44, c, 15, 0, 0⟩
def CSTAT_NCH (c : Nat) : Fld := ⟨0x48, 0x48, c, 25, 16, 0⟩
def CSTAT_KIND (c : Nat) : Fld := ⟨0x48, 0x48, c, 4, 4, 0⟩
def CSTAT_STATE (c : Nat) : Fld := ⟨0x48, 0x48, c, 3, 0, 0⟩
def CCMD_OP (c : Nat) : Fld := ⟨0x48, 0x4c, c, 3, 0, 0⟩
def CSEQ_SEQ (c : Nat) : Fld := ⟨0x48, 0x50, c, 31, 0, 0⟩
def CKGEN_GEN (c : Nat) : Fld := ⟨0x48, 0x54, c, 31, 0, 0⟩
def CSLLO_N (c : Nat) : Fld := ⟨0x48, 0x58, c, 31, 0, 0⟩
def CSLHI_N (c : Nat) : Fld := ⟨0x48, 0x5c, c, 31, 0, 0⟩
def CGAP_N (c : Nat) : Fld := ⟨0x48, 0x60, c, 15, 0, 0⟩
def CSET_CH (k c : Nat) : Fld := ⟨0x48, (0x80 + 4 * k), c, 31, 0, 0⟩
/-- The block registers of page STM, in offset order. -/
def regs : List RegDef :=
  [⟨0x40, .none, [⟨.rw, 5, 0, 1, .between 1 63⟩]⟩,
   ⟨0x44, .stmCtx, [⟨.rwl, 31, 31, 0, .any⟩, ⟨.rwl, 30, 30, 0, .any⟩, ⟨.rwl, 29, 28, 0, .between 0 1⟩, ⟨.rwl, 27, 27, 0, .any⟩, ⟨.rwl, 26, 26, 0, .any⟩, ⟨.rwl, 15, 0, 0, .any⟩]⟩,
   ⟨0x48, .stmCtx, [⟨.ro, 25, 16, 0, .any⟩, ⟨.ro, 4, 4, 0, .any⟩, ⟨.ro, 3, 0, 0, .any⟩]⟩,
   ⟨0x4c, .stmCtx, [⟨.wo, 3, 0, 0, .any⟩]⟩,
   ⟨0x50, .stmCtx, [⟨.ro, 31, 0, 0, .any⟩]⟩,
   ⟨0x54, .stmCtx, [⟨.ro, 31, 0, 0, .any⟩]⟩,
   ⟨0x58, .stmCtx, [⟨.ro, 31, 0, 0, .any⟩]⟩,
   ⟨0x5c, .stmCtx, [⟨.ro, 31, 0, 0, .any⟩]⟩,
   ⟨0x60, .stmCtx, [⟨.ro, 15, 0, 0, .any⟩]⟩] ++
  (List.range 25).map (fun k => ⟨0x80 + 4 * k, .stmCtx, [⟨.rwl, 31, 0, 0, .any⟩]⟩)
end STM

namespace QUE
def QSEL_Q : Fld := ⟨0x49, 0x40, 0, 6, 0, 1⟩
def QCFG_SRC (q : Nat) : Fld := ⟨0x49, 0x44, q, 31, 26, 0⟩
def QCFG_BASE (q : Nat) : Fld := ⟨0x49, 0x44, q, 25, 16, (queBaseRst q)⟩
def QCFG_DEPTH (q : Nat) : Fld := ⟨0x49, 0x44, q, 10, 0, (queDepthRst q)⟩
def QWMHI_WM (q : Nat) : Fld := ⟨0x49, 0x48, q, 20, 0, 0⟩
def QWMLO_WM (q : Nat) : Fld := ⟨0x49, 0x4c, q, 20, 0, 0⟩
def QLVL_LVL (q : Nat) : Fld := ⟨0x49, 0x50, q, 20, 0, 0⟩
def QPEAK_PK (q : Nat) : Fld := ⟨0x49, 0x54, q, 20, 0, 0⟩
def QWST_HIX (q : Nat) : Fld := ⟨0x49, 0x58, q, 1, 1, 0⟩
def QWST_LOX (q : Nat) : Fld := ⟨0x49, 0x58, q, 0, 0, 0⟩
def QWCNT_HIC (q : Nat) : Fld := ⟨0x49, 0x5c, q, 31, 16, 0⟩
def QWCNT_LOC (q : Nat) : Fld := ⟨0x49, 0x5c, q, 15, 0, 0⟩
def QITEMS_N (q : Nat) : Fld := ⟨0x49, 0x60, q, 31, 0, 0⟩
def QNIT_N (q : Nat) : Fld := ⟨0x49, 0x64, q, 16, 0, 0⟩
def QPERR_N (q : Nat) : Fld := ⟨0x49, 0x68, q, 15, 0, 0⟩
def QSTAT_FLP (q : Nat) : Fld := ⟨0x49, 0x6c, q, 8, 8, 0⟩
def QSTAT_BYP (q : Nat) : Fld := ⟨0x49, 0x6c, q, 4, 4, 0⟩
def QSTAT_HELD (q : Nat) : Fld := ⟨0x49, 0x6c, q, 3, 3, 0⟩
def QSTAT_FULL (q : Nat) : Fld := ⟨0x49, 0x6c, q, 2, 2, 0⟩
def QSTAT_EMPTY (q : Nat) : Fld := ⟨0x49, 0x6c, q, 1, 1, 1⟩
def QCMD_OP : Fld := ⟨0x49, 0x70, 0, 3, 0, 0⟩
def QDROP_N (q : Nat) : Fld := ⟨0x49, 0x74, q, 15, 0, 0⟩
def QBYP_PCT : Fld := ⟨0x49, 0x80, 0, 6, 0, 0x32⟩
def QUSED_UNITS : Fld := ⟨0x49, 0x84, 0, 10, 0, 0x400⟩
def QPND0_Q : Fld := ⟨0x49, 0x88, 0, 31, 1, 0⟩
def QPND1_Q : Fld := ⟨0x49, 0x8c, 0, 31, 0, 0⟩
def QPND2_Q : Fld := ⟨0x49, 0x90, 0, 3, 0, 0⟩
def QHOLD_CYC : Fld := ⟨0x49, 0x94, 0, 15, 0, 0⟩
def QPOP_D (k : Nat) : Fld := ⟨0x49, (0x400 + 4 * k), 0, 31, 0, 0⟩
/-- The block registers of page QUE, in offset order. -/
def regs : List RegDef :=
  [⟨0x40, .none, [⟨.rw, 6, 0, 1, .between 1 67⟩]⟩,
   ⟨0x44, .queue, [⟨.rw, 31, 26, 0, .any⟩, ⟨.rw, 25, 16, 0, .any⟩, ⟨.rw, 10, 0, 0, .any⟩]⟩,
   ⟨0x48, .queue, [⟨.rw, 20, 0, 0, .any⟩]⟩,
   ⟨0x4c, .queue, [⟨.rw, 20, 0, 0, .any⟩]⟩,
   ⟨0x50, .queue, [⟨.ro, 20, 0, 0, .any⟩]⟩,
   ⟨0x54, .queue, [⟨.rw, 20, 0, 0, .clear⟩]⟩,
   ⟨0x58, .queue, [⟨.w1c, 1, 1, 0, .any⟩, ⟨.w1c, 0, 0, 0, .any⟩]⟩,
   ⟨0x5c, .queue, [⟨.rw, 31, 16, 0, .clear⟩, ⟨.rw, 15, 0, 0, .clear⟩]⟩,
   ⟨0x60, .queue, [⟨.ro, 31, 0, 0, .any⟩]⟩,
   ⟨0x64, .queue, [⟨.ro, 16, 0, 0, .any⟩]⟩,
   ⟨0x68, .queue, [⟨.rw, 15, 0, 0, .clear⟩]⟩,
   ⟨0x6c, .queue, [⟨.ro, 8, 8, 0, .any⟩, ⟨.ro, 4, 4, 0, .any⟩, ⟨.ro, 3, 3, 0, .any⟩, ⟨.ro, 2, 2, 0, .any⟩, ⟨.ro, 1, 1, 1, .any⟩]⟩] ++
  [⟨0x70, .none, [⟨.wo, 3, 0, 0, .any⟩]⟩,
   ⟨0x74, .queue, [⟨.rw, 15, 0, 0, .clear⟩]⟩,
   ⟨0x80, .none, [⟨.rw, 6, 0, 0x32, .between 1 100⟩]⟩,
   ⟨0x84, .none, [⟨.ro, 10, 0, 0x400, .any⟩]⟩,
   ⟨0x88, .none, [⟨.ro, 31, 1, 0, .any⟩]⟩,
   ⟨0x8c, .none, [⟨.ro, 31, 0, 0, .any⟩]⟩,
   ⟨0x90, .none, [⟨.ro, 3, 0, 0, .any⟩]⟩,
   ⟨0x94, .none, [⟨.rw, 15, 0, 0, .clear⟩]⟩] ++
  (List.range 256).map (fun k => ⟨0x400 + 4 * k, .none, [⟨.ro, 31, 0, 0, .any⟩]⟩)
end QUE

namespace CDC
def CDCMD_ENG : Fld := ⟨0x4a, 0x40, 0, 9, 8, 0⟩
def CDCMD_OP : Fld := ⟨0x4a, 0x40, 0, 3, 0, 0⟩
def ECTL_BYP : Fld := ⟨0x4a, 0x44, 0, 3, 0, 0⟩
def ESTAT_ST : Fld := ⟨0x4a, 0x48, 0, 15, 0, 0⟩
def CHKN_N : Fld := ⟨0x4a, 0x4c, 0, 7, 0, 0x10⟩
def RSTPER_N : Fld := ⟨0x4a, 0x50, 0, 15, 0, 0x100⟩
def DJMAX_N : Fld := ⟨0x4a, 0x54, 0, 4, 0, 4⟩
def VFLIM_N : Fld := ⟨0x4a, 0x58, 0, 3, 0, 4⟩
def JOBS_DJOB : Fld := ⟨0x4a, 0x5c, 0, 20, 16, 0⟩
def JOBS_SJOB : Fld := ⟨0x4a, 0x5c, 0, 6, 0, 0⟩
def VFCNT_N : Fld := ⟨0x4a, 0x60, 0, 15, 0, 0⟩
def INW_N : Fld := ⟨0x4a, 0x64, 0, 31, 0, 0⟩
def OUTW_N : Fld := ⟨0x4a, 0x68, 0, 31, 0, 0⟩
def PLNCNT_N : Fld := ⟨0x4a, 0x6c, 0, 31, 0, 0⟩
def DSC (k : Nat) : Fld := ⟨0x4a, (0x80 + 4 * k), 0, 31, 0, 0⟩
def DCMD_JOB : Fld := ⟨0x4a, 0xa0, 0, 19, 16, 0⟩
def DCMD_OP : Fld := ⟨0x4a, 0xa0, 0, 3, 0, 0⟩
def DSEL_JOB : Fld := ⟨0x4a, 0xa4, 0, 3, 0, 0⟩
def DSTAT_STATE (j : Nat) : Fld := ⟨0x4a, 0xa8, j, 31, 28, 0⟩
def DSTAT_ERR (j : Nat) : Fld := ⟨0x4a, 0xa8, j, 27, 24, 0⟩
def DSTAT_UTAG (j : Nat) : Fld := ⟨0x4a, 0xa8, j, 15, 8, 0⟩
def DSTAT_OP (j : Nat) : Fld := ⟨0x4a, 0xa8, j, 7, 4, 0⟩
def DCONS_N (j : Nat) : Fld := ⟨0x4a, 0xac, j, 31, 0, 0⟩
def DPRD0_N (j : Nat) : Fld := ⟨0x4a, 0xb0, j, 31, 0, 0⟩
def DPRD1_N (j : Nat) : Fld := ⟨0x4a, 0xb4, j, 31, 0, 0⟩
def DBITS_CB (j : Nat) : Fld := ⟨0x4a, 0xb8, j, 22, 16, 0⟩
def DBITS_DB (j : Nat) : Fld := ⟨0x4a, 0xb8, j, 6, 0, 0⟩
def DLAST_VAL : Fld := ⟨0x4a, 0xbc, 0, 4, 4, 0⟩
def DLAST_JOB : Fld := ⟨0x4a, 0xbc, 0, 3, 0, 0⟩
def DPND_J : Fld := ⟨0x4a, 0xc0, 0, 15, 0, 0⟩
def NMSEL_HALF : Fld := ⟨0x4a, 0xc4, 0, 8, 8, 0⟩
def NMSEL_CTX : Fld := ⟨0x4a, 0xc4, 0, 5, 0, 1⟩
def NMAP_ENB (k m : Nat) : Fld := ⟨0x4a, (0x400 + 4 * k), m, 25, 16, 0x3ff⟩
def NMAP_ENA (k m : Nat) : Fld := ⟨0x4a, (0x400 + 4 * k), m, 9, 0, 0x3ff⟩
/-- The block registers of page CDC, in offset order. -/
def regs : List RegDef :=
  [⟨0x40, .none, [⟨.wo, 9, 8, 0, .any⟩, ⟨.wo, 3, 0, 0, .any⟩]⟩,
   ⟨0x44, .none, [⟨.rw, 3, 0, 0, .any⟩]⟩,
   ⟨0x48, .none, [⟨.ro, 15, 0, 0, .any⟩]⟩,
   ⟨0x4c, .none, [⟨.rw, 7, 0, 0x10, .any⟩]⟩,
   ⟨0x50, .none, [⟨.rw, 15, 0, 0x100, .between 1 65535⟩]⟩,
   ⟨0x54, .none, [⟨.rw, 4, 0, 4, .between 0 16⟩]⟩,
   ⟨0x58, .none, [⟨.rw, 3, 0, 4, .between 1 15⟩]⟩,
   ⟨0x5c, .none, [⟨.ro, 20, 16, 0, .any⟩, ⟨.ro, 6, 0, 0, .any⟩]⟩,
   ⟨0x60, .none, [⟨.rw, 15, 0, 0, .clear⟩]⟩,
   ⟨0x64, .none, [⟨.ro, 31, 0, 0, .any⟩]⟩,
   ⟨0x68, .none, [⟨.ro, 31, 0, 0, .any⟩]⟩,
   ⟨0x6c, .none, [⟨.ro, 31, 0, 0, .any⟩]⟩] ++
  (List.range 8).map (fun k => ⟨0x80 + 4 * k, .none, [⟨.rw, 31, 0, 0, .any⟩]⟩) ++
  [⟨0xa0, .none, [⟨.wo, 19, 16, 0, .any⟩, ⟨.wo, 3, 0, 0, .any⟩]⟩,
   ⟨0xa4, .none, [⟨.rw, 3, 0, 0, .any⟩]⟩,
   ⟨0xa8, .cdcJob, [⟨.ro, 31, 28, 0, .any⟩, ⟨.ro, 27, 24, 0, .any⟩, ⟨.ro, 15, 8, 0, .any⟩, ⟨.ro, 7, 4, 0, .any⟩]⟩,
   ⟨0xac, .cdcJob, [⟨.ro, 31, 0, 0, .any⟩]⟩,
   ⟨0xb0, .cdcJob, [⟨.ro, 31, 0, 0, .any⟩]⟩,
   ⟨0xb4, .cdcJob, [⟨.ro, 31, 0, 0, .any⟩]⟩,
   ⟨0xb8, .cdcJob, [⟨.ro, 22, 16, 0, .any⟩, ⟨.ro, 6, 0, 0, .any⟩]⟩,
   ⟨0xbc, .none, [⟨.ro, 4, 4, 0, .any⟩, ⟨.ro, 3, 0, 0, .any⟩]⟩,
   ⟨0xc0, .none, [⟨.ro, 15, 0, 0, .any⟩]⟩,
   ⟨0xc4, .none, [⟨.rw, 8, 8, 0, .any⟩, ⟨.rw, 5, 0, 1, .between 1 63⟩]⟩] ++
  (List.range 256).map (fun k => ⟨0x400 + 4 * k, .nmap, [⟨.rw, 25, 16, 0x3ff, .any⟩, ⟨.rw, 9, 0, 0x3ff, .any⟩]⟩)
end CDC

namespace CTX
def XSEL_CTX : Fld := ⟨0x4b, 0x40, 0, 5, 0, 1⟩
def XCMD_OP : Fld := ⟨0x4b, 0x44, 0, 3, 0, 0⟩
def XSTAT_NW : Fld := ⟨0x4b, 0x48, 0, 31, 16, 0⟩
def XSTAT_SCTX : Fld := ⟨0x4b, 0x48, 0, 5, 0, 0⟩
def XBASE_SEG : Fld := ⟨0x4b, 0x4c, 0, 3, 0, 0⟩
def XCRC_CRC : Fld := ⟨0x4b, 0x50, 0, 31, 0, 0⟩
def XWIN_D (k g : Nat) : Fld := ⟨0x4b, (0x400 + 4 * k), g, 31, 0, 0⟩
/-- The block registers of page CTX, in offset order. -/
def regs : List RegDef :=
  [⟨0x40, .none, [⟨.rw, 5, 0, 1, .between 1 63⟩]⟩,
   ⟨0x44, .none, [⟨.wo, 3, 0, 0, .any⟩]⟩,
   ⟨0x48, .none, [⟨.ro, 31, 16, 0, .any⟩, ⟨.ro, 5, 0, 0, .any⟩]⟩,
   ⟨0x4c, .none, [⟨.rw, 3, 0, 0, .any⟩]⟩,
   ⟨0x50, .none, [⟨.ro, 31, 0, 0, .any⟩]⟩] ++
  (List.range 256).map (fun k => ⟨0x400 + 4 * k, .ctxSeg, [⟨.rw, 31, 0, 0, .any⟩]⟩)
end CTX

namespace CNV
def FILL_PCT : Fld := ⟨0x4c, 0x40, 0, 31, 24, 0⟩
def FILL_SEGS : Fld := ⟨0x4c, 0x40, 0, 15, 0, 0⟩
def FREE_SEGS : Fld := ⟨0x4c, 0x44, 0, 15, 0, 0xf000⟩
def WRES_N : Fld := ⟨0x4c, 0x48, 0, 12, 0, 0⟩
def WADDR_ADDR : Fld := ⟨0x4c, 0x4c, 0, 31, 10, 0⟩
def SCRUB_EN : Fld := ⟨0x4c, 0x50, 0, 31, 31, 1⟩
def SCRUB_HRS : Fld := ⟨0x4c, 0x50, 0, 15, 0, 0x18⟩
def ECORR_N : Fld := ⟨0x4c, 0x54, 0, 31, 0, 0⟩
def EUNC_N : Fld := ⟨0x4c, 0x58, 0, 15, 0, 0⟩
def EADDR_ADDR : Fld := ⟨0x4c, 0x5c, 0, 28, 0, 0⟩
def ACKIGN_N : Fld := ⟨0x4c, 0x60, 0, 15, 0, 0⟩
def NDECL_N : Fld := ⟨0x4c, 0x64, 0, 31, 0, 0⟩
def NOVWR_N : Fld := ⟨0x4c, 0x68, 0, 31, 0, 0⟩
def RSVUSE_W : Fld := ⟨0x4c, 0x6c, 0, 15, 0, 0⟩
def ASEL_CTX : Fld := ⟨0x4c, 0x70, 0, 5, 0, 1⟩
def AOLD_SEQ (c : Nat) : Fld := ⟨0x4c, 0x74, c, 31, 0, 0⟩
def ANEW_SEQ (c : Nat) : Fld := ⟨0x4c, 0x78, c, 31, 0, 0⟩
def ASTAT_DECL (c : Nat) : Fld := ⟨0x4c, 0x7c, c, 31, 31, 0⟩
def ASTAT_SEGS (c : Nat) : Fld := ⟨0x4c, 0x7c, c, 15, 0, 0⟩
def WWIN_D (k : Nat) : Fld := ⟨0x4c, (0x400 + 4 * k), 0, 31, 0, 0⟩
/-- The block registers of page CNV, in offset order. -/
def regs : List RegDef :=
  [⟨0x40, .none, [⟨.ro, 31, 24, 0, .any⟩, ⟨.ro, 15, 0, 0, .any⟩]⟩,
   ⟨0x44, .none, [⟨.ro, 15, 0, 0xf000, .any⟩]⟩,
   ⟨0x48, .none, [⟨.rw, 12, 0, 0, .between 0 4096⟩]⟩,
   ⟨0x4c, .none, [⟨.rw, 31, 10, 0, .any⟩]⟩,
   ⟨0x50, .none, [⟨.rw, 31, 31, 1, .any⟩, ⟨.rw, 15, 0, 0x18, .between 1 720⟩]⟩,
   ⟨0x54, .none, [⟨.ro, 31, 0, 0, .any⟩]⟩,
   ⟨0x58, .none, [⟨.rw, 15, 0, 0, .clear⟩]⟩,
   ⟨0x5c, .none, [⟨.ro, 28, 0, 0, .any⟩]⟩,
   ⟨0x60, .none, [⟨.rw, 15, 0, 0, .clear⟩]⟩,
   ⟨0x64, .none, [⟨.ro, 31, 0, 0, .any⟩]⟩,
   ⟨0x68, .none, [⟨.ro, 31, 0, 0, .any⟩]⟩,
   ⟨0x6c, .none, [⟨.ro, 15, 0, 0, .any⟩]⟩] ++
  [⟨0x70, .none, [⟨.rw, 5, 0, 1, .between 1 63⟩]⟩,
   ⟨0x74, .cnvCtx, [⟨.ro, 31, 0, 0, .any⟩]⟩,
   ⟨0x78, .cnvCtx, [⟨.ro, 31, 0, 0, .any⟩]⟩,
   ⟨0x7c, .cnvCtx, [⟨.ro, 31, 31, 0, .any⟩, ⟨.ro, 15, 0, 0, .any⟩]⟩] ++
  (List.range 256).map (fun k => ⟨0x400 + 4 * k, .none, [⟨.rw, 31, 0, 0, .any⟩]⟩)
end CNV

namespace TSU
def TCTL_SRC3 : Fld := ⟨0x50, 0x40, 0, 13, 12, 3⟩
def TCTL_SRC2 : Fld := ⟨0x50, 0x40, 0, 11, 10, 2⟩
def TCTL_SRC1 : Fld := ⟨0x50, 0x40, 0, 9, 8, 1⟩
def TCTL_ORD : Fld := ⟨0x50, 0x40, 0, 2, 2, 0⟩
def TCTL_ASTEP : Fld := ⟨0x50, 0x40, 0, 1, 1, 1⟩
def TCTL_SERVO : Fld := ⟨0x50, 0x40, 0, 0, 0, 1⟩
def TSTAT_SAT : Fld := ⟨0x50, 0x44, 0, 12, 12, 0⟩
def TSTAT_SLEW : Fld := ⟨0x50, 0x44, 0, 11, 11, 0⟩
def TSTAT_QPPS : Fld := ⟨0x50, 0x44, 0, 10, 10, 0⟩
def TSTAT_QPTP : Fld := ⟨0x50, 0x44, 0, 9, 9, 0⟩
def TSTAT_QTK : Fld := ⟨0x50, 0x44, 0, 8, 8, 0⟩
def TSTAT_AUNK : Fld := ⟨0x50, 0x44, 0, 7, 7, 0⟩
def TSTAT_PSH : Fld := ⟨0x50, 0x44, 0, 6, 6, 0⟩
def TSTAT_FRN : Fld := ⟨0x50, 0x44, 0, 4, 4, 1⟩
def TSTAT_SRC : Fld := ⟨0x50, 0x44, 0, 1, 0, 0⟩
def INCLO_FRAC : Fld := ⟨0x50, 0x48, 0, 31, 0, 0x11aaaaab⟩
def INCHI_INT : Fld := ⟨0x50, 0x4c, 0, 3, 0, 4⟩
def TSECH_SEC : Fld := ⟨0x50, 0x50, 0, 15, 0, 0⟩
def TSECL_SEC : Fld := ⟨0x50, 0x54, 0, 31, 0, 0⟩
def TNS_NS : Fld := ⟨0x50, 0x58, 0, 29, 0, 0⟩
def TFRAC_FRAC : Fld := ⟨0x50, 0x5c, 0, 15, 0, 0⟩
def TSETH_SEC : Fld := ⟨0x50, 0x60, 0, 15, 0, 0⟩
def TSETL_SEC : Fld := ⟨0x50, 0x64, 0, 31, 0, 0⟩
def TSETN_NS : Fld := ⟨0x50, 0x68, 0, 29, 0, 0⟩
def TSETF_FRAC : Fld := ⟨0x50, 0x6c, 0, 15, 0, 0⟩
def TCMD_OP : Fld := ⟨0x50, 0x70, 0, 3, 0, 0⟩
def TADJ_NS : Fld := ⟨0x50, 0x74, 0, 31, 0, 0⟩
def RXCORR_PS : Fld := ⟨0x50, 0x78, 0, 31, 0, 0x1bd0⟩
def TXCORR_PS : Fld := ⟨0x50, 0x7c, 0, 31, 0, 0xb4a⟩
def PTOFS_OFS : Fld := ⟨0x50, 0x80, 0, 31, 0, 0⟩
def TKOFS_OFS : Fld := ⟨0x50, 0x84, 0, 31, 0, 0⟩
def MPD_D : Fld := ⟨0x50, 0x88, 0, 31, 0, 0⟩
def MPDF_D : Fld := ⟨0x50, 0x8c, 0, 31, 0, 0⟩
def PDSTEP_NS : Fld := ⟨0x50, 0x90, 0, 15, 0, 0xc8⟩
def HOLDOFF_SEC : Fld := ⟨0x50, 0x94, 0, 15, 0, 0x1e⟩
def ASYM_A : Fld := ⟨0x50, 0x98, 0, 31, 0, 0⟩
def QUAL_SEC : Fld := ⟨0x50, 0x9c, 0, 7, 0, 0xa⟩
def TSLW_PPM : Fld := ⟨0x50, 0xa0, 0, 7, 0, 0x14⟩
def XTOL_NS : Fld := ⟨0x50, 0xa4, 0, 15, 0, 0x3e8⟩
def REFCFG_REN : Fld := ⟨0x50, 0xa8, 0, 4, 4, 0⟩
def REFCFG_FREQ : Fld := ⟨0x50, 0xa8, 0, 1, 0, 0⟩
def REFCNT_N : Fld := ⟨0x50, 0xac, 0, 31, 0, 0⟩
def FOFS_F : Fld := ⟨0x50, 0xb0, 0, 31, 0, 0⟩
def STPTH_US : Fld := ⟨0x50, 0xb4, 0, 15, 0, 0x64⟩
/-- The block registers of page TSU, in offset order. -/
def regs : List RegDef :=
  [⟨0x40, .none, [⟨.rw, 13, 12, 3, .any⟩, ⟨.rw, 11, 10, 2, .any⟩, ⟨.rw, 9, 8, 1, .any⟩, ⟨.rw, 2, 2, 0, .any⟩, ⟨.rw, 1, 1, 1, .any⟩, ⟨.rw, 0, 0, 1, .any⟩]⟩,
   ⟨0x44, .none, [⟨.ro, 12, 12, 0, .any⟩, ⟨.ro, 11, 11, 0, .any⟩, ⟨.ro, 10, 10, 0, .any⟩, ⟨.ro, 9, 9, 0, .any⟩, ⟨.ro, 8, 8, 0, .any⟩, ⟨.ro, 7, 7, 0, .any⟩, ⟨.ro, 6, 6, 0, .any⟩, ⟨.ro, 4, 4, 1, .any⟩, ⟨.ro, 1, 0, 0, .any⟩]⟩,
   ⟨0x48, .none, [⟨.rw, 31, 0, 0x11aaaaab, .any⟩]⟩,
   ⟨0x4c, .none, [⟨.rw, 3, 0, 4, .any⟩]⟩,
   ⟨0x50, .none, [⟨.ro, 15, 0, 0, .any⟩]⟩,
   ⟨0x54, .none, [⟨.ro, 31, 0, 0, .any⟩]⟩,
   ⟨0x58, .none, [⟨.ro, 29, 0, 0, .any⟩]⟩,
   ⟨0x5c, .none, [⟨.ro, 15, 0, 0, .any⟩]⟩,
   ⟨0x60, .none, [⟨.rw, 15, 0, 0, .any⟩]⟩,
   ⟨0x64, .none, [⟨.rw, 31, 0, 0, .any⟩]⟩,
   ⟨0x68, .none, [⟨.rw, 29, 0, 0, .between 0 999999999⟩]⟩,
   ⟨0x6c, .none, [⟨.rw, 15, 0, 0, .any⟩]⟩] ++
  [⟨0x70, .none, [⟨.wo, 3, 0, 0, .any⟩]⟩,
   ⟨0x74, .none, [⟨.rw, 31, 0, 0, .any⟩]⟩,
   ⟨0x78, .none, [⟨.rw, 31, 0, 0x1bd0, .any⟩]⟩,
   ⟨0x7c, .none, [⟨.rw, 31, 0, 0xb4a, .any⟩]⟩,
   ⟨0x80, .none, [⟨.ro, 31, 0, 0, .any⟩]⟩,
   ⟨0x84, .none, [⟨.ro, 31, 0, 0, .any⟩]⟩,
   ⟨0x88, .none, [⟨.ro, 31, 0, 0, .any⟩]⟩,
   ⟨0x8c, .none, [⟨.ro, 31, 0, 0, .any⟩]⟩,
   ⟨0x90, .none, [⟨.rw, 15, 0, 0xc8, .between 10 65535⟩]⟩,
   ⟨0x94, .none, [⟨.rw, 15, 0, 0x1e, .between 1 3600⟩]⟩,
   ⟨0x98, .none, [⟨.rw, 31, 0, 0, .any⟩]⟩,
   ⟨0x9c, .none, [⟨.rw, 7, 0, 0xa, .between 1 255⟩]⟩] ++
  [⟨0xa0, .none, [⟨.rw, 7, 0, 0x14, .between 1 100⟩]⟩,
   ⟨0xa4, .none, [⟨.rw, 15, 0, 0x3e8, .between 1 65535⟩]⟩,
   ⟨0xa8, .none, [⟨.rw, 4, 4, 0, .any⟩, ⟨.rw, 1, 0, 0, .between 0 2⟩]⟩,
   ⟨0xac, .none, [⟨.ro, 31, 0, 0, .any⟩]⟩,
   ⟨0xb0, .none, [⟨.ro, 31, 0, 0, .any⟩]⟩,
   ⟨0xb4, .none, [⟨.rw, 15, 0, 0x64, .between 1 65535⟩]⟩]
end TSU

namespace ETH
def ECFG_MODE : Fld := ⟨0x51, 0x40, 0, 1, 0, 1⟩
def ELNK_BLK : Fld := ⟨0x51, 0x44, 0, 1, 1, 0⟩
def ELNK_UP : Fld := ⟨0x51, 0x44, 0, 0, 0, 0⟩
def MACHI_MAC : Fld := ⟨0x51, 0x48, 0, 15, 0, 0⟩
def MACLO_MAC : Fld := ⟨0x51, 0x4c, 0, 31, 0, 0⟩
def IP4A_ADDR : Fld := ⟨0x51, 0x50, 0, 31, 0, 0⟩
def IP4G_ADDR : Fld := ⟨0x51, 0x54, 0, 31, 0, 0⟩
def IP6C_EN : Fld := ⟨0x51, 0x58, 0, 8, 8, 0⟩
def IP6C_P4LEN : Fld := ⟨0x51, 0x58, 0, 5, 0, 0x18⟩
def PTPCFG_ANNTO : Fld := ⟨0x51, 0x5c, 0, 31, 28, 3⟩
def PTPCFG_LANN : Fld := ⟨0x51, 0x5c, 0, 27, 24, 1⟩
def PTPCFG_LMDR : Fld := ⟨0x51, 0x5c, 0, 23, 20, 0⟩
def PTPCFG_LSYNC : Fld := ⟨0x51, 0x5c, 0, 19, 16, 0xd⟩
def PTPCFG_DOM : Fld := ⟨0x51, 0x5c, 0, 15, 8, 0⟩
def PTPCFG_ONESTEP : Fld := ⟨0x51, 0x5c, 0, 5, 5, 1⟩
def PTPCFG_ROLE : Fld := ⟨0x51, 0x5c, 0, 4, 3, 1⟩
def PTPCFG_DELAY : Fld := ⟨0x51, 0x5c, 0, 2, 2, 0⟩
def PTPCFG_TRANS : Fld := ⟨0x51, 0x5c, 0, 1, 0, 0⟩
def PTPID_PRIO1 : Fld := ⟨0x51, 0x60, 0, 31, 24, 0x80⟩
def PTPID_PRIO2 : Fld := ⟨0x51, 0x60, 0, 23, 16, 0x80⟩
def PTPID_CLASS : Fld := ⟨0x51, 0x60, 0, 15, 8, 0xf8⟩
def PTPID_ACC : Fld := ⟨0x51, 0x60, 0, 7, 0, 0xfe⟩
def GMIDH_ID : Fld := ⟨0x51, 0x64, 0, 31, 0, 0⟩
def GMIDL_ID : Fld := ⟨0x51, 0x68, 0, 31, 0, 0⟩
def NSYNC_N : Fld := ⟨0x51, 0x6c, 0, 31, 0, 0⟩
def NDLY_N : Fld := ⟨0x51, 0x70, 0, 31, 0, 0⟩
def NINS_N : Fld := ⟨0x51, 0x74, 0, 31, 0, 0⟩
def RXERR_N : Fld := ⟨0x51, 0x78, 0, 31, 0, 0⟩
def TSOVF_N : Fld := ⟨0x51, 0x7c, 0, 15, 0, 0⟩
/-- The block registers of page ETH, in offset order. -/
def regs : List RegDef :=
  [⟨0x40, .none, [⟨.rwe, 1, 0, 1, .between 0 2⟩]⟩,
   ⟨0x44, .none, [⟨.ro, 1, 1, 0, .any⟩, ⟨.ro, 0, 0, 0, .any⟩]⟩,
   ⟨0x48, .none, [⟨.ro, 15, 0, 0, .any⟩]⟩,
   ⟨0x4c, .none, [⟨.ro, 31, 0, 0, .any⟩]⟩,
   ⟨0x50, .none, [⟨.rw, 31, 0, 0, .any⟩]⟩,
   ⟨0x54, .none, [⟨.rw, 31, 0, 0, .any⟩]⟩,
   ⟨0x58, .none, [⟨.rw, 8, 8, 0, .any⟩, ⟨.rw, 5, 0, 0x18, .between 1 30⟩]⟩,
   ⟨0x5c, .none, [⟨.rw, 31, 28, 3, .between 2 15⟩, ⟨.rw, 27, 24, 1, .outside 5 12⟩, ⟨.rw, 23, 20, 0, .outside 6 8⟩, ⟨.rw, 19, 16, 0xd, .outside 2 8⟩, ⟨.rw, 15, 8, 0, .between 0 127⟩, ⟨.rw, 5, 5, 1, .any⟩, ⟨.rw, 4, 3, 1, .any⟩, ⟨.rw, 2, 2, 0, .any⟩, ⟨.rw, 1, 0, 0, .between 0 2⟩]⟩,
   ⟨0x60, .none, [⟨.rw, 31, 24, 0x80, .any⟩, ⟨.rw, 23, 16, 0x80, .any⟩, ⟨.rw, 15, 8, 0xf8, .any⟩, ⟨.rw, 7, 0, 0xfe, .any⟩]⟩,
   ⟨0x64, .none, [⟨.ro, 31, 0, 0, .any⟩]⟩,
   ⟨0x68, .none, [⟨.ro, 31, 0, 0, .any⟩]⟩,
   ⟨0x6c, .none, [⟨.ro, 31, 0, 0, .any⟩]⟩] ++
  [⟨0x70, .none, [⟨.ro, 31, 0, 0, .any⟩]⟩,
   ⟨0x74, .none, [⟨.ro, 31, 0, 0, .any⟩]⟩,
   ⟨0x78, .none, [⟨.ro, 31, 0, 0, .any⟩]⟩,
   ⟨0x7c, .none, [⟨.rw, 15, 0, 0, .clear⟩]⟩]
end ETH

namespace DOM
def DPOS_UNIT : Fld := ⟨0x5a, 0x40, 0, 17, 16, 0⟩
def DPOS_POS : Fld := ⟨0x5a, 0x40, 0, 7, 0, 0⟩
def DID_ID : Fld := ⟨0x5a, 0x44, 0, 31, 0, 0⟩
def AGEN_GEN : Fld := ⟨0x5a, 0x48, 0, 31, 0, 0⟩
def DROLE_KEEP : Fld := ⟨0x5a, 0x4c, 0, 16, 16, 0⟩
def DROLE_HPOS : Fld := ⟨0x5a, 0x4c, 0, 15, 8, 0⟩
def DROLE_AUTH : Fld := ⟨0x5a, 0x4c, 0, 1, 0, 0⟩
def HPATH_TSIDE : Fld := ⟨0x5a, 0x50, 0, 16, 16, 0⟩
def HPATH_HOPW : Fld := ⟨0x5a, 0x50, 0, 15, 8, 0xff⟩
def HPATH_HOPE : Fld := ⟨0x5a, 0x50, 0, 7, 0, 0xff⟩
def CPATH_RLY : Fld := ⟨0x5a, 0x54, 0, 17, 17, 0⟩
def CPATH_CSIDE : Fld := ⟨0x5a, 0x54, 0, 16, 16, 0⟩
def CPATH_CHW : Fld := ⟨0x5a, 0x54, 0, 15, 8, 0xff⟩
def CPATH_CHE : Fld := ⟨0x5a, 0x54, 0, 7, 0, 0xff⟩
def EGR_MODE : Fld := ⟨0x5a, 0x58, 0, 1, 0, 0⟩
def TOPOG_G : Fld := ⟨0x5a, 0x5c, 0, 7, 0, 0⟩
def ACMD_OP : Fld := ⟨0x5a, 0x60, 0, 3, 0, 0⟩
def PTOCC_PW : Fld := ⟨0x5a, 0x64, 0, 24, 16, 0⟩
def PTOCC_PE : Fld := ⟨0x5a, 0x64, 0, 8, 0, 0⟩
def SRCS_SW : Fld := ⟨0x5a, 0x68, 0, 15, 8, 0⟩
def SRCS_SE : Fld := ⟨0x5a, 0x68, 0, 7, 0, 0⟩
def NRSN_N : Fld := ⟨0x5a, 0x6c, 0, 31, 0, 0⟩
def NRSI_N : Fld := ⟨0x5a, 0x70, 0, 15, 0, 0⟩
def NFWD_N : Fld := ⟨0x5a, 0x74, 0, 31, 0, 0⟩
def HBTO_MS : Fld := ⟨0x5a, 0x78, 0, 15, 0, 2⟩
def RJTOL_NS : Fld := ⟨0x5a, 0x7c, 0, 15, 0, 0x64⟩
def CHSEL_CH : Fld := ⟨0x5a, 0x80, 0, 9, 0, 0⟩
def CHINF_GID : Fld := ⟨0x5a, 0x84, 0, 31, 14, 0⟩
def CHINF_MODE : Fld := ⟨0x5a, 0x84, 0, 13, 11, 0⟩
def CHINF_GAIN : Fld := ⟨0x5a, 0x84, 0, 10, 8, 0⟩
def CHINF_BST : Fld := ⟨0x5a, 0x84, 0, 7, 4, 0⟩
def CHINF_LIN : Fld := ⟨0x5a, 0x84, 0, 3, 3, 0⟩
def CHINF_MTR : Fld := ⟨0x5a, 0x84, 0, 2, 2, 0⟩
def RPT_POS : Fld := ⟨0x5a, 0x88, 0, 31, 24, 0⟩
def RPT_UNIT : Fld := ⟨0x5a, 0x88, 0, 23, 22, 0⟩
def RPT_REASON : Fld := ⟨0x5a, 0x88, 0, 21, 18, 0⟩
def RPTEP_EP : Fld := ⟨0x5a, 0x8c, 0, 29, 0, 0⟩
def ASTG (k : Nat) : Fld := ⟨0x5a, (0x400 + 4 * k), 0, 31, 0, 0⟩
/-- The block registers of page DOM, in offset order. -/
def regs : List RegDef :=
  [⟨0x40, .none, [⟨.ro, 17, 16, 0, .any⟩, ⟨.rw, 7, 0, 0, .between 0 144⟩]⟩,
   ⟨0x44, .none, [⟨.ro, 31, 0, 0, .any⟩]⟩,
   ⟨0x48, .none, [⟨.ro, 31, 0, 0, .any⟩]⟩,
   ⟨0x4c, .none, [⟨.ro, 16, 16, 0, .any⟩, ⟨.ro, 15, 8, 0, .any⟩, ⟨.ro, 1, 0, 0, .any⟩]⟩,
   ⟨0x50, .none, [⟨.ro, 16, 16, 0, .any⟩, ⟨.ro, 15, 8, 0xff, .any⟩, ⟨.ro, 7, 0, 0xff, .any⟩]⟩,
   ⟨0x54, .none, [⟨.ro, 17, 17, 0, .any⟩, ⟨.ro, 16, 16, 0, .any⟩, ⟨.ro, 15, 8, 0xff, .any⟩, ⟨.ro, 7, 0, 0xff, .any⟩]⟩,
   ⟨0x58, .none, [⟨.rw, 1, 0, 0, .between 0 2⟩]⟩,
   ⟨0x5c, .none, [⟨.ro, 7, 0, 0, .any⟩]⟩,
   ⟨0x60, .none, [⟨.wo, 3, 0, 0, .any⟩]⟩,
   ⟨0x64, .none, [⟨.ro, 24, 16, 0, .any⟩, ⟨.ro, 8, 0, 0, .any⟩]⟩,
   ⟨0x68, .none, [⟨.ro, 15, 8, 0, .any⟩, ⟨.ro, 7, 0, 0, .any⟩]⟩,
   ⟨0x6c, .none, [⟨.ro, 31, 0, 0, .any⟩]⟩] ++
  [⟨0x70, .none, [⟨.rw, 15, 0, 0, .clear⟩]⟩,
   ⟨0x74, .none, [⟨.ro, 31, 0, 0, .any⟩]⟩,
   ⟨0x78, .none, [⟨.rw, 15, 0, 2, .between 1 1000⟩]⟩,
   ⟨0x7c, .none, [⟨.rw, 15, 0, 0x64, .between 1 65535⟩]⟩,
   ⟨0x80, .none, [⟨.rw, 9, 0, 0, .between 0 783⟩]⟩,
   ⟨0x84, .none, [⟨.ro, 31, 14, 0, .any⟩, ⟨.ro, 13, 11, 0, .any⟩, ⟨.ro, 10, 8, 0, .any⟩, ⟨.ro, 7, 4, 0, .any⟩, ⟨.ro, 3, 3, 0, .any⟩, ⟨.ro, 2, 2, 0, .any⟩]⟩,
   ⟨0x88, .none, [⟨.ro, 31, 24, 0, .any⟩, ⟨.ro, 23, 22, 0, .any⟩, ⟨.ro, 21, 18, 0, .any⟩]⟩,
   ⟨0x8c, .none, [⟨.ro, 29, 0, 0, .any⟩]⟩] ++
  (List.range 40).map (fun k => ⟨0x400 + 4 * k, .none, [⟨.rw, 31, 0, 0, .any⟩]⟩)
end DOM

namespace TWL
def TCMD_OP : Fld := ⟨0x68, 0x40, 0, 3, 0, 0⟩
def TROLE_ROLE : Fld := ⟨0x68, 0x44, 0, 31, 28, 0⟩
def TROLE_PROLE : Fld := ⟨0x68, 0x44, 0, 27, 24, 0xf⟩
def TROLE_UNIT : Fld := ⟨0x68, 0x44, 0, 17, 16, 0⟩
def TROLE_LINK : Fld := ⟨0x68, 0x44, 0, 8, 8, 0⟩
def TROLE_XPRES : Fld := ⟨0x68, 0x44, 0, 7, 7, 0⟩
def TROLE_FOREIGN : Fld := ⟨0x68, 0x44, 0, 6, 6, 0⟩
def TROLE_PAUSE : Fld := ⟨0x68, 0x44, 0, 5, 5, 0⟩
def TROLE_CFGB : Fld := ⟨0x68, 0x44, 0, 4, 4, 0⟩
def TROLE_CFGREJ : Fld := ⟨0x68, 0x44, 0, 3, 3, 0⟩
def TROLE_DIS : Fld := ⟨0x68, 0x44, 0, 2, 2, 0⟩
def CKPER_MS : Fld := ⟨0x68, 0x48, 0, 15, 0, 0xa⟩
def HBGAP_US : Fld := ⟨0x68, 0x4c, 0, 15, 0, 0x3e8⟩
def HBMLO_BANKS : Fld := ⟨0x68, 0x50, 0, 31, 0, 0xffffffff⟩
def HBMHI_BANKS : Fld := ⟨0x68, 0x54, 0, 15, 0, 0xffff⟩
def AGREE_CODES : Fld := ⟨0x68, 0x58, 0, 23, 0, 0x1000⟩
def THP_US : Fld := ⟨0x68, 0x5c, 0, 31, 0, 0xfa0⟩
def ABST_US : Fld := ⟨0x68, 0x60, 0, 31, 0, 0⟩
def HWORD : Fld := ⟨0x68, 0x64, 0, 31, 0, 0⟩
def PHWORD : Fld := ⟨0x68, 0x68, 0, 31, 0, 0⟩
def CKN_N : Fld := ⟨0x68, 0x6c, 0, 31, 0, 0⟩
def CGEN_N : Fld := ⟨0x68, 0x70, 0, 31, 0, 0⟩
def PCGEN_N : Fld := ⟨0x68, 0x74, 0, 31, 0, 0⟩
def NTKO_N : Fld := ⟨0x68, 0x78, 0, 15, 0, 0⟩
def NYLD_N : Fld := ⟨0x68, 0x7c, 0, 15, 0, 0⟩
def NCKD_N : Fld := ⟨0x68, 0x80, 0, 15, 0, 0⟩
def NDIS_N : Fld := ⟨0x68, 0x84, 0, 15, 0, 0⟩
def DISCH_VAL : Fld := ⟨0x68, 0x88, 0, 31, 31, 0⟩
def DISCH_CH : Fld := ⟨0x68, 0x88, 0, 9, 0, 0⟩
def POFS_OFS : Fld := ⟨0x68, 0x8c, 0, 31, 0, 0⟩
def SILNT_US : Fld := ⟨0x68, 0x90, 0, 31, 0, 0⟩
def TLSTAT_RXACT : Fld := ⟨0x68, 0x94, 0, 5, 4, 0⟩
def TLSTAT_TXACT : Fld := ⟨0x68, 0x94, 0, 3, 2, 0⟩
def TLSTAT_FBTX : Fld := ⟨0x68, 0x94, 0, 1, 1, 0⟩
def TLSTAT_FBRX : Fld := ⟨0x68, 0x94, 0, 0, 0, 0⟩
/-- The block registers of page TWL, in offset order. -/
def regs : List RegDef :=
  [⟨0x40, .none, [⟨.wo, 3, 0, 0, .any⟩]⟩,
   ⟨0x44, .none, [⟨.ro, 31, 28, 0, .any⟩, ⟨.ro, 27, 24, 0xf, .any⟩, ⟨.ro, 17, 16, 0, .any⟩, ⟨.ro, 8, 8, 0, .any⟩, ⟨.ro, 7, 7, 0, .any⟩, ⟨.ro, 6, 6, 0, .any⟩, ⟨.ro, 5, 5, 0, .any⟩, ⟨.ro, 4, 4, 0, .any⟩, ⟨.ro, 3, 3, 0, .any⟩, ⟨.ro, 2, 2, 0, .any⟩]⟩,
   ⟨0x48, .none, [⟨.rw, 15, 0, 0xa, .between 1 1000⟩]⟩,
   ⟨0x4c, .none, [⟨.rw, 15, 0, 0x3e8, .between 100 65535⟩]⟩,
   ⟨0x50, .none, [⟨.rw, 31, 0, 0xffffffff, .any⟩]⟩,
   ⟨0x54, .none, [⟨.rw, 15, 0, 0xffff, .any⟩]⟩,
   ⟨0x58, .none, [⟨.rw, 23, 0, 0x1000, .between 1 16777215⟩]⟩,
   ⟨0x5c, .none, [⟨.ro, 31, 0, 0xfa0, .any⟩]⟩,
   ⟨0x60, .none, [⟨.ro, 31, 0, 0, .any⟩]⟩,
   ⟨0x64, .none, [⟨.ro, 31, 0, 0, .any⟩]⟩,
   ⟨0x68, .none, [⟨.ro, 31, 0, 0, .any⟩]⟩,
   ⟨0x6c, .none, [⟨.ro, 31, 0, 0, .any⟩]⟩] ++
  [⟨0x70, .none, [⟨.ro, 31, 0, 0, .any⟩]⟩,
   ⟨0x74, .none, [⟨.ro, 31, 0, 0, .any⟩]⟩,
   ⟨0x78, .none, [⟨.rw, 15, 0, 0, .clear⟩]⟩,
   ⟨0x7c, .none, [⟨.rw, 15, 0, 0, .clear⟩]⟩,
   ⟨0x80, .none, [⟨.rw, 15, 0, 0, .clear⟩]⟩,
   ⟨0x84, .none, [⟨.rw, 15, 0, 0, .clear⟩]⟩,
   ⟨0x88, .none, [⟨.ro, 31, 31, 0, .any⟩, ⟨.ro, 9, 0, 0, .any⟩]⟩,
   ⟨0x8c, .none, [⟨.ro, 31, 0, 0, .any⟩]⟩,
   ⟨0x90, .none, [⟨.ro, 31, 0, 0, .any⟩]⟩,
   ⟨0x94, .none, [⟨.ro, 5, 4, 0, .any⟩, ⟨.ro, 3, 2, 0, .any⟩, ⟨.ro, 1, 1, 0, .any⟩, ⟨.ro, 0, 0, 0, .any⟩]⟩]
end TWL

namespace MGT
def PCMD_PROC : Fld := ⟨0x70, 0x40, 0, 5, 4, 0⟩
def PCMD_OP : Fld := ⟨0x70, 0x40, 0, 3, 0, 0⟩
def PRST_ST (p : Nat) : Fld := ⟨0x70, 0x44, 0, (8 * p + 7), (8 * p + 4), 2⟩
def PRST_RSTC (p : Nat) : Fld := ⟨0x70, 0x44, 0, (8 * p + 3), (8 * p + 0), 0⟩
def PLOAD_PCT (p : Nat) : Fld := ⟨0x70, 0x48, 0, (8 * p + 7), (8 * p + 0), 0⟩
def TDIE_T (k : Nat) : Fld := ⟨0x70, (0x60 + 4 * k), 0, 15, 0, 0⟩
def VRAIL_MV (k : Nat) : Fld := ⟨0x70, (0x80 + 4 * k), 0, 15, 0, 0⟩
def TKVE_I : Fld := ⟨0x70, 0xb0, 0, 31, 16, 0⟩
def TKVE_V : Fld := ⟨0x70, 0xb0, 0, 15, 0, 0⟩
def TKVW_I : Fld := ⟨0x70, 0xb4, 0, 31, 16, 0⟩
def TKVW_V : Fld := ⟨0x70, 0xb4, 0, 15, 0, 0⟩
def MOIST_RH : Fld := ⟨0x70, 0xb8, 0, 15, 0, 0⟩
def TWARN_T : Fld := ⟨0x70, 0xbc, 0, 15, 0, 0x2af8⟩
def MOISTH_RH : Fld := ⟨0x70, 0xc0, 0, 15, 0, 0x2bc⟩
def LGIDX_AGE : Fld := ⟨0x70, 0xc4, 0, 11, 0, 0⟩
def LGE (k : Nat) : Fld := ⟨0x70, (0xc8 + 4 * k), 0, 31, 0, 0⟩
def LGNUM_N : Fld := ⟨0x70, 0xd8, 0, 12, 0, 0⟩
def CSEL_MOD : Fld := ⟨0x70, 0xe0, 0, 25, 16, 0⟩
def CSEL_GAIN : Fld := ⟨0x70, 0xe0, 0, 10, 8, 0⟩
def CSEL_RF : Fld := ⟨0x70, 0xe0, 0, 1, 0, 0⟩
def CG0_G0 (m : Nat) : Fld := ⟨0x70, 0xe4, m, 31, 0, 0⟩
def CO0_O0 (m : Nat) : Fld := ⟨0x70, 0xe8, m, 31, 0, 0⟩
def CTC_TG (m : Nat) : Fld := ⟨0x70, 0xec, m, 31, 16, 0⟩
def CTC_TO (m : Nat) : Fld := ⟨0x70, 0xec, m, 15, 0, 0⟩
def CTR_TREF (m : Nat) : Fld := ⟨0x70, 0xf0, m, 31, 16, 0⟩
def CTR_DIE (m : Nat) : Fld := ⟨0x70, 0xf0, m, 2, 0, 0⟩
def CBGG_GBG (m : Nat) : Fld := ⟨0x70, 0xf4, m, 31, 0, 0⟩
def CBGO_OBG (m : Nat) : Fld := ⟨0x70, 0xf8, m, 31, 0, 0⟩
/-- The block registers of page MGT, in offset order. -/
def regs : List RegDef :=
  [⟨0x40, .none, [⟨.wo, 5, 4, 0, .any⟩, ⟨.wo, 3, 0, 0, .any⟩]⟩,
   ⟨0x44, .none, [⟨.ro, 7, 4, 2, .any⟩, ⟨.ro, 15, 12, 2, .any⟩, ⟨.ro, 23, 20, 2, .any⟩, ⟨.ro, 31, 28, 2, .any⟩, ⟨.ro, 3, 0, 0, .any⟩, ⟨.ro, 11, 8, 0, .any⟩, ⟨.ro, 19, 16, 0, .any⟩, ⟨.ro, 27, 24, 0, .any⟩]⟩,
   ⟨0x48, .none, [⟨.ro, 7, 0, 0, .any⟩, ⟨.ro, 15, 8, 0, .any⟩, ⟨.ro, 23, 16, 0, .any⟩, ⟨.ro, 31, 24, 0, .any⟩]⟩] ++
  (List.range 6).map (fun k => ⟨0x60 + 4 * k, .none, [⟨.ro, 15, 0, 0, .any⟩]⟩) ++
  (List.range 12).map (fun k => ⟨0x80 + 4 * k, .none, [⟨.ro, 15, 0, 0, .any⟩]⟩) ++
  [⟨0xb0, .none, [⟨.ro, 31, 16, 0, .any⟩, ⟨.ro, 15, 0, 0, .any⟩]⟩,
   ⟨0xb4, .none, [⟨.ro, 31, 16, 0, .any⟩, ⟨.ro, 15, 0, 0, .any⟩]⟩,
   ⟨0xb8, .none, [⟨.ro, 15, 0, 0, .any⟩]⟩,
   ⟨0xbc, .none, [⟨.rw, 15, 0, 0x2af8, .any⟩]⟩,
   ⟨0xc0, .none, [⟨.rw, 15, 0, 0x2bc, .between 1 1000⟩]⟩,
   ⟨0xc4, .none, [⟨.rw, 11, 0, 0, .any⟩]⟩] ++
  (List.range 4).map (fun k => ⟨0xc8 + 4 * k, .none, [⟨.ro, 31, 0, 0, .any⟩]⟩) ++
  [⟨0xd8, .none, [⟨.ro, 12, 0, 0, .any⟩]⟩,
   ⟨0xe0, .none, [⟨.rw, 25, 16, 0, .between 0 832⟩, ⟨.rw, 10, 8, 0, .between 0 4⟩, ⟨.rw, 1, 0, 0, .any⟩]⟩,
   ⟨0xe4, .l0, [⟨.ro, 31, 0, 0, .any⟩]⟩,
   ⟨0xe8, .l0, [⟨.ro, 31, 0, 0, .any⟩]⟩,
   ⟨0xec, .l0, [⟨.ro, 31, 16, 0, .any⟩, ⟨.ro, 15, 0, 0, .any⟩]⟩,
   ⟨0xf0, .l0, [⟨.ro, 31, 16, 0, .any⟩, ⟨.ro, 2, 0, 0, .any⟩]⟩,
   ⟨0xf4, .l0, [⟨.ro, 31, 0, 0, .any⟩]⟩,
   ⟨0xf8, .l0, [⟨.ro, 31, 0, 0, .any⟩]⟩]
end MGT

namespace SEC
def SCMD_SID : Fld := ⟨0x71, 0x40, 0, 10, 8, 0⟩
def SCMD_OP : Fld := ⟨0x71, 0x40, 0, 3, 0, 0⟩
def OSTAT_NOSS : Fld := ⟨0x71, 0x44, 0, 3, 3, 1⟩
def OSTAT_MKMD : Fld := ⟨0x71, 0x44, 0, 2, 2, 0⟩
def OSTAT_ENDRS : Fld := ⟨0x71, 0x44, 0, 1, 1, 0⟩
def OSTAT_OWNED : Fld := ⟨0x71, 0x44, 0, 0, 0, 0⟩
def OGEN_GEN : Fld := ⟨0x71, 0x48, 0, 31, 0, 0⟩
def AFPR_FP : Fld := ⟨0x71, 0x4c, 0, 31, 0, 0⟩
def SGEN_GEN : Fld := ⟨0x71, 0x50, 0, 31, 0, 0⟩
def SOPEN_S : Fld := ⟨0x71, 0x54, 0, 7, 0, 0⟩
def SSEL_SID : Fld := ⟨0x71, 0x58, 0, 2, 0, 0⟩
def SINF_ROLE : Fld := ⟨0x71, 0x5c, 0, 31, 30, 0⟩
def SINF_PATH : Fld := ⟨0x71, 0x5c, 0, 29, 28, 0⟩
def SINF_OUT : Fld := ⟨0x71, 0x5c, 0, 22, 16, 0⟩
def SINF_IDLE : Fld := ⟨0x71, 0x5c, 0, 15, 0, 0⟩
def STMO_SEC : Fld := ⟨0x71, 0x60, 0, 15, 0, 0x1e⟩
def MKCH0_CH : Fld := ⟨0x71, 0x64, 0, 31, 0, 0⟩
def MKCH1_CH : Fld := ⟨0x71, 0x68, 0, 31, 0, 0⟩
def DSFAIL_N : Fld := ⟨0x71, 0x6c, 0, 15, 0, 0⟩
def DPUB (k : Nat) : Fld := ⟨0x71, (0x100 + 4 * k), 0, 31, 0, 0⟩
def STG (k : Nat) : Fld := ⟨0x71, (0x400 + 4 * k), 0, 31, 0, 0⟩
/-- The block registers of page SEC, in offset order. -/
def regs : List RegDef :=
  [⟨0x40, .none, [⟨.wo, 10, 8, 0, .any⟩, ⟨.wo, 3, 0, 0, .any⟩]⟩,
   ⟨0x44, .none, [⟨.ro, 3, 3, 1, .any⟩, ⟨.ro, 2, 2, 0, .any⟩, ⟨.ro, 1, 1, 0, .any⟩, ⟨.ro, 0, 0, 0, .any⟩]⟩,
   ⟨0x48, .none, [⟨.ro, 31, 0, 0, .any⟩]⟩,
   ⟨0x4c, .none, [⟨.ro, 31, 0, 0, .any⟩]⟩,
   ⟨0x50, .none, [⟨.ro, 31, 0, 0, .any⟩]⟩,
   ⟨0x54, .none, [⟨.ro, 7, 0, 0, .any⟩]⟩,
   ⟨0x58, .none, [⟨.rw, 2, 0, 0, .any⟩]⟩,
   ⟨0x5c, .none, [⟨.ro, 31, 30, 0, .any⟩, ⟨.ro, 29, 28, 0, .any⟩, ⟨.ro, 22, 16, 0, .any⟩, ⟨.ro, 15, 0, 0, .any⟩]⟩,
   ⟨0x60, .none, [⟨.rw, 15, 0, 0x1e, .between 5 3600⟩]⟩,
   ⟨0x64, .none, [⟨.ro, 31, 0, 0, .any⟩]⟩,
   ⟨0x68, .none, [⟨.ro, 31, 0, 0, .any⟩]⟩,
   ⟨0x6c, .none, [⟨.rw, 15, 0, 0, .clear⟩]⟩] ++
  (List.range 24).map (fun k => ⟨0x100 + 4 * k, .none, [⟨.ro, 31, 0, 0, .any⟩]⟩) ++
  (List.range 128).map (fun k => ⟨0x400 + 4 * k, .none, [⟨.rw, 31, 0, 0, .any⟩]⟩)
end SEC

namespace UPD
def UCMD_OP : Fld := ⟨0x72, 0x40, 0, 3, 0, 0⟩
def USTAT_STAGE : Fld := ⟨0x72, 0x44, 0, 31, 28, 0⟩
def USTAT_ERR : Fld := ⟨0x72, 0x44, 0, 27, 24, 0⟩
def USTAT_TYPE : Fld := ⟨0x72, 0x44, 0, 19, 16, 0⟩
def USTAT_HELD : Fld := ⟨0x72, 0x44, 0, 3, 3, 0⟩
def USTAT_SID : Fld := ⟨0x72, 0x44, 0, 2, 0, 0⟩
def ULEN_N : Fld := ⟨0x72, 0x48, 0, 20, 0, 0⟩
def UBASE_SEG : Fld := ⟨0x72, 0x4c, 0, 11, 0, 0⟩
def UPOL_BRKOK : Fld := ⟨0x72, 0x50, 0, 1, 1, 0⟩
def UPOL_OCSREQ : Fld := ⟨0x72, 0x50, 0, 0, 0, 0⟩
def UVER_VER : Fld := ⟨0x72, 0x54, 0, 31, 0, 0⟩
def ULVL_PLV : Fld := ⟨0x72, 0x58, 0, 31, 24, 0⟩
def ULVL_RLV : Fld := ⟨0x72, 0x58, 0, 23, 16, 0⟩
def IVER_VER (k : Nat) : Fld := ⟨0x72, (0x60 + 4 * k), 0, 31, 0, 0⟩
def ILVL_PLV (k : Nat) : Fld := ⟨0x72, (0x70 + 4 * k), 0, 31, 24, 0⟩
def ILVL_RLV (k : Nat) : Fld := ⟨0x72, (0x70 + 4 * k), 0, 23, 16, 0⟩
def ILVL_LST (k : Nat) : Fld := ⟨0x72, (0x70 + 4 * k), 0, 3, 0, 0⟩
def ULAST_PROC : Fld := ⟨0x72, 0x80, 0, 31, 28, 0⟩
def ULAST_ERR : Fld := ⟨0x72, 0x80, 0, 27, 24, 0⟩
def UWIN_D (k g : Nat) : Fld := ⟨0x72, (0x400 + 4 * k), g, 31, 0, 0⟩
/-- The block registers of page UPD, in offset order. -/
def regs : List RegDef :=
  [⟨0x40, .none, [⟨.wo, 3, 0, 0, .any⟩]⟩,
   ⟨0x44, .none, [⟨.ro, 31, 28, 0, .any⟩, ⟨.ro, 27, 24, 0, .any⟩, ⟨.ro, 19, 16, 0, .any⟩, ⟨.ro, 3, 3, 0, .any⟩, ⟨.ro, 2, 0, 0, .any⟩]⟩,
   ⟨0x48, .none, [⟨.rw, 20, 0, 0, .size 1048576⟩]⟩,
   ⟨0x4c, .none, [⟨.rw, 11, 0, 0, .any⟩]⟩,
   ⟨0x50, .none, [⟨.rw, 1, 1, 0, .any⟩, ⟨.rw, 0, 0, 0, .any⟩]⟩,
   ⟨0x54, .none, [⟨.ro, 31, 0, 0, .any⟩]⟩,
   ⟨0x58, .none, [⟨.ro, 31, 24, 0, .any⟩, ⟨.ro, 23, 16, 0, .any⟩]⟩] ++
  (List.range 4).map (fun k => ⟨0x60 + 4 * k, .none, [⟨.ro, 31, 0, 0, .any⟩]⟩) ++
  (List.range 4).map (fun k => ⟨0x70 + 4 * k, .none, [⟨.ro, 31, 24, 0, .any⟩, ⟨.ro, 23, 16, 0, .any⟩, ⟨.ro, 3, 0, 0, .any⟩]⟩) ++
  [⟨0x80, .none, [⟨.ro, 31, 28, 0, .any⟩, ⟨.ro, 27, 24, 0, .any⟩]⟩] ++
  (List.range 256).map (fun k => ⟨0x400 + 4 * k, .updSeg, [⟨.rw, 31, 0, 0, .any⟩]⟩)
end UPD

namespace SVC
def SVST_HS : Fld := ⟨0x73, 0x40, 0, 2, 2, 0⟩
def SVST_CONF : Fld := ⟨0x73, 0x40, 0, 1, 1, 0⟩
def SVST_VBUS : Fld := ⟨0x73, 0x40, 0, 0, 0, 0⟩
def USBID_VID : Fld := ⟨0x73, 0x44, 0, 31, 16, 0⟩
def USBID_PRID : Fld := ⟨0x73, 0x44, 0, 15, 0, 0⟩
def SVRX_N : Fld := ⟨0x73, 0x48, 0, 31, 0, 0⟩
def SVTX_N : Fld := ⟨0x73, 0x4c, 0, 31, 0, 0⟩
def SVERR_N : Fld := ⟨0x73, 0x50, 0, 15, 0, 0⟩
/-- The block registers of page SVC, in offset order. -/
def regs : List RegDef :=
  [⟨0x40, .none, [⟨.ro, 2, 2, 0, .any⟩, ⟨.ro, 1, 1, 0, .any⟩, ⟨.ro, 0, 0, 0, .any⟩]⟩,
   ⟨0x44, .none, [⟨.ro, 31, 16, 0, .any⟩, ⟨.ro, 15, 0, 0, .any⟩]⟩,
   ⟨0x48, .none, [⟨.ro, 31, 0, 0, .any⟩]⟩,
   ⟨0x4c, .none, [⟨.ro, 31, 0, 0, .any⟩]⟩,
   ⟨0x50, .none, [⟨.rw, 15, 0, 0, .clear⟩]⟩]
end SVC

namespace BNK
def BCMD_OP (n : Nat) : Fld := ⟨(bankPage n), (bankOff n 0x40), 0, 3, 0, 0⟩
def XCTL_HALFP (n : Nat) : Fld := ⟨(bankPage n), (bankOff n 0x44), 0, 26, 16, 8⟩
def XCTL_BLANK (n : Nat) : Fld := ⟨(bankPage n), (bankOff n 0x44), 0, 15, 8, 0x18⟩
def XCTL_PAEN (n : Nat) : Fld := ⟨(bankPage n), (bankOff n 0x44), 0, 7, 7, 1⟩
def XCTL_TDIS (n : Nat) : Fld := ⟨(bankPage n), (bankOff n 0x44), 0, 6, 0, 8⟩
def FRESP_MWIN (n : Nat) : Fld := ⟨(bankPage n), (bankOff n 0x48), 0, 31, 31, 0⟩
def FRESP_MWN (n : Nat) : Fld := ⟨(bankPage n), (bankOff n 0x48), 0, 27, 24, 1⟩
def FRESP_RESP (n : Nat) : Fld := ⟨(bankPage n), (bankOff n 0x48), 0, 23, 20, 0⟩
def FRESP_CICD (n : Nat) : Fld := ⟨(bankPage n), (bankOff n 0x48), 0, 15, 0, 0x600⟩
def SPARE_SUSE (n : Nat) : Fld := ⟨(bankPage n), (bankOff n 0x4c), 0, 9, 8, 0⟩
def SPARE_SCHN (n : Nat) : Fld := ⟨(bankPage n), (bankOff n 0x4c), 0, 3, 0, 0⟩
def TINJ_LVL (n : Nat) : Fld := ⟨(bankPage n), (bankOff n 0x50), 0, 17, 16, 0⟩
def TINJ_MASK (n : Nat) : Fld := ⟨(bankPage n), (bankOff n 0x50), 0, 15, 0, 0⟩
def QCFG_QM (n k : Nat) : Fld := ⟨(bankPage n), (bankOff n (0x60 + 4 * k)), 0, 31, 30, 0⟩
def QCFG_ILOAD (n k : Nat) : Fld := ⟨(bankPage n), (bankOff n (0x60 + 4 * k)), 0, 23, 16, 0⟩
def QCFG_LSNS (n k : Nat) : Fld := ⟨(bankPage n), (bankOff n (0x60 + 4 * k)), 0, 9, 9, 0⟩
def QCFG_LEVEL (n k : Nat) : Fld := ⟨(bankPage n), (bankOff n (0x60 + 4 * k)), 0, 8, 0, 0⟩
def QMEAS_VSNS (n k : Nat) : Fld := ⟨(bankPage n), (bankOff n (0x70 + 4 * k)), 0, 31, 16, 0⟩
def QMEAS_IMEAS (n k : Nat) : Fld := ⟨(bankPage n), (bankOff n (0x70 + 4 * k)), 0, 15, 0, 0⟩
def QSTAT_IDEV (n q : Nat) : Fld := ⟨(bankPage n), (bankOff n 0x80), 0, (8 * q + 4), (8 * q + 4), 0⟩
def QSTAT_ILIM (n q : Nat) : Fld := ⟨(bankPage n), (bankOff n 0x80), 0, (8 * q + 3), (8 * q + 3), 0⟩
def QSTAT_OPEN (n q : Nat) : Fld := ⟨(bankPage n), (bankOff n 0x80), 0, (8 * q + 2), (8 * q + 2), 0⟩
def QSTAT_POL (n q : Nat) : Fld := ⟨(bankPage n), (bankOff n 0x80), 0, (8 * q + 1), (8 * q + 1), 0⟩
def QSTAT_ON (n q : Nat) : Fld := ⟨(bankPage n), (bankOff n 0x80), 0, (8 * q + 0), (8 * q + 0), 0⟩
def CHST_OPN (n : Nat) : Fld := ⟨(bankPage n), (bankOff n 0x84), 0, 31, 16, 0⟩
def CHST_OVR (n : Nat) : Fld := ⟨(bankPage n), (bankOff n 0x84), 0, 15, 0, 0⟩
def SETST_BDS (n : Nat) : Fld := ⟨(bankPage n), (bankOff n 0x88), 0, 16, 16, 0⟩
def SETST_SET (n : Nat) : Fld := ⟨(bankPage n), (bankOff n 0x88), 0, 15, 0, 0⟩
def CHCFG_IEPEI (n k : Nat) : Fld := ⟨(bankPage n), (bankOff n (0xc0 + 4 * k)), 0, 15, 12, 0⟩
def CHCFG_GAIN (n k : Nat) : Fld := ⟨(bankPage n), (bankOff n (0xc0 + 4 * k)), 0, 10, 8, 0⟩
def CHCFG_MODE (n k : Nat) : Fld := ⟨(bankPage n), (bankOff n (0xc0 + 4 * k)), 0, 2, 0, 0⟩
def CALGN_GN (n k : Nat) : Fld := ⟨(bankPage n), (bankOff n (0x100 + 4 * k)), 0, 31, 0, 0x40000000⟩
def CALOF_OF (n k : Nat) : Fld := ⟨(bankPage n), (bankOff n (0x140 + 4 * k)), 0, 31, 0, 0⟩
/-- The block registers of page BNK, in offset order. -/
def regs : List RegDef :=
  [⟨0x40, .none, [⟨.wo, 3, 0, 0, .any⟩]⟩,
   ⟨0x44, .none, [⟨.rwl, 26, 16, 8, .between 1 1024⟩, ⟨.rwl, 15, 8, 0x18, .any⟩, ⟨.rwl, 7, 7, 1, .any⟩, ⟨.rwl, 6, 0, 8, .between 1 64⟩]⟩,
   ⟨0x48, .none, [⟨.rwl, 31, 31, 0, .any⟩, ⟨.rwl, 27, 24, 1, .between 1 15⟩, ⟨.rwl, 23, 20, 0, .any⟩, ⟨.rwl, 15, 0, 0x600, .any⟩]⟩,
   ⟨0x4c, .none, [⟨.rwl, 9, 8, 0, .between 0 2⟩, ⟨.rwl, 3, 0, 0, .any⟩]⟩,
   ⟨0x50, .none, [⟨.rw, 17, 16, 0, .between 0 2⟩, ⟨.rw, 15, 0, 0, .any⟩]⟩] ++
  (List.range 4).map (fun k => ⟨0x60 + 4 * k, .none, [⟨.rwl, 31, 30, 0, .between 0 2⟩, ⟨.rwl, 23, 16, 0, .any⟩, ⟨.rwl, 9, 9, 0, .any⟩, ⟨.rwl, 8, 0, 0, .any⟩]⟩) ++
  (List.range 4).map (fun k => ⟨0x70 + 4 * k, .none, [⟨.ro, 31, 16, 0, .any⟩, ⟨.ro, 15, 0, 0, .any⟩]⟩) ++
  [⟨0x80, .none, [⟨.ro, 4, 4, 0, .any⟩, ⟨.ro, 12, 12, 0, .any⟩, ⟨.ro, 20, 20, 0, .any⟩, ⟨.ro, 28, 28, 0, .any⟩, ⟨.ro, 3, 3, 0, .any⟩, ⟨.ro, 11, 11, 0, .any⟩, ⟨.ro, 19, 19, 0, .any⟩, ⟨.ro, 27, 27, 0, .any⟩, ⟨.ro, 2, 2, 0, .any⟩, ⟨.ro, 10, 10, 0, .any⟩, ⟨.ro, 18, 18, 0, .any⟩, ⟨.ro, 26, 26, 0, .any⟩, ⟨.ro, 1, 1, 0, .any⟩, ⟨.ro, 9, 9, 0, .any⟩, ⟨.ro, 17, 17, 0, .any⟩, ⟨.ro, 25, 25, 0, .any⟩, ⟨.ro, 0, 0, 0, .any⟩, ⟨.ro, 8, 8, 0, .any⟩, ⟨.ro, 16, 16, 0, .any⟩, ⟨.ro, 24, 24, 0, .any⟩]⟩,
   ⟨0x84, .none, [⟨.ro, 31, 16, 0, .any⟩, ⟨.ro, 15, 0, 0, .any⟩]⟩,
   ⟨0x88, .none, [⟨.ro, 16, 16, 0, .any⟩, ⟨.ro, 15, 0, 0, .any⟩]⟩] ++
  (List.range 16).map (fun k => ⟨0xc0 + 4 * k, .none, [⟨.rwl, 15, 12, 0, .between 0 12⟩, ⟨.rwl, 10, 8, 0, .between 0 4⟩, ⟨.rwl, 2, 0, 0, .between 0 5⟩]⟩) ++
  (List.range 16).map (fun k => ⟨0x100 + 4 * k, .none, [⟨.rwl, 31, 0, 0x40000000, .any⟩]⟩) ++
  (List.range 16).map (fun k => ⟨0x140 + 4 * k, .none, [⟨.rwl, 31, 0, 0, .any⟩]⟩)
end BNK

namespace TK
def LCMD_OP (p : Nat) : Fld := ⟨(0x58 + p), 0x40, 0, 3, 0, 0⟩
def LCFG_QEN (p : Nat) : Fld := ⟨(0x58 + p), 0x44, 0, 5, 5, 0⟩
def LCFG_AUTO (p : Nat) : Fld := ⟨(0x58 + p), 0x44, 0, 4, 4, 1⟩
def LCFG_PCM (p : Nat) : Fld := ⟨(0x58 + p), 0x44, 0, 3, 2, 0⟩
def LSTAT_RXACT (p : Nat) : Fld := ⟨(0x58 + p), 0x48, 0, 31, 28, 0⟩
def LSTAT_TXACT (p : Nat) : Fld := ⟨(0x58 + p), 0x48, 0, 27, 24, 0⟩
def LSTAT_RETR (p : Nat) : Fld := ⟨(0x58 + p), 0x48, 0, 23, 20, 0⟩
def LSTAT_PARK (p : Nat) : Fld := ⟨(0x58 + p), 0x48, 0, 19, 16, 0⟩
def LSTAT_PCRX (p : Nat) : Fld := ⟨(0x58 + p), 0x48, 0, 15, 12, 0⟩
def LSTAT_PCTX (p : Nat) : Fld := ⟨(0x58 + p), 0x48, 0, 11, 8, 0⟩
def LSTAT_QUIET (p : Nat) : Fld := ⟨(0x58 + p), 0x48, 0, 2, 2, 0⟩
def LSTAT_FBTX (p : Nat) : Fld := ⟨(0x58 + p), 0x48, 0, 1, 1, 0⟩
def LSTAT_FBRX (p : Nat) : Fld := ⟨(0x58 + p), 0x48, 0, 0, 0, 0⟩
def ADAPTQ_SWEN (p : Nat) : Fld := ⟨(0x58 + p), 0x4c, 0, 7, 4, 0xf⟩
def ADAPTQ_QUAL (p : Nat) : Fld := ⟨(0x58 + p), 0x4c, 0, 3, 0, 0⟩
def MARGMIN_MV (p : Nat) : Fld := ⟨(0x58 + p), 0x50, 0, 7, 0, 0x18⟩
def MARG_MV (p k : Nat) : Fld := ⟨(0x58 + p), 0x54, 0, (8 * k + 7), (8 * k + 0), 0⟩
def LSEL_LANE (p : Nat) : Fld := ⟨(0x58 + p), 0x58, 0, 1, 0, 0⟩
def TAPS_CM1 (p l : Nat) : Fld := ⟨(0x58 + p), 0x5c, l, 23, 16, 0⟩
def TAPS_C0 (p l : Nat) : Fld := ⟨(0x58 + p), 0x5c, l, 15, 8, 0x40⟩
def TAPS_CP1 (p l : Nat) : Fld := ⟨(0x58 + p), 0x5c, l, 7, 0, 0⟩
def QIDLE_US (p : Nat) : Fld := ⟨(0x58 + p), 0x60, 0, 15, 0, 0x64⟩
def MAXF_OWN (p : Nat) : Fld := ⟨(0x58 + p), 0x64, 0, 27, 16, 0x809⟩
def MAXF_NEG (p : Nat) : Fld := ⟨(0x58 + p), 0x64, 0, 11, 0, 0⟩
def LNKTO_US (p : Nat) : Fld := ⟨(0x58 + p), 0x68, 0, 15, 0, 0x3e8⟩
def NCORR_N (p : Nat) : Fld := ⟨(0x58 + p), 0x6c, 0, 31, 0, 0⟩
def NUNC_N (p : Nat) : Fld := ⟨(0x58 + p), 0x70, 0, 31, 0, 0⟩
def NREPL_N (p : Nat) : Fld := ⟨(0x58 + p), 0x74, 0, 31, 0, 0⟩
def OVLEN_N (p : Nat) : Fld := ⟨(0x58 + p), 0x78, 0, 15, 0, 0⟩
def TRNF_N (p : Nat) : Fld := ⟨(0x58 + p), 0x7c, 0, 15, 0, 0⟩
def LDLY_D (p : Nat) : Fld := ⟨(0x58 + p), 0x80, 0, 31, 0, 0⟩
def LOFS_OFS (p : Nat) : Fld := ⟨(0x58 + p), 0x84, 0, 31, 0, 0⟩
def LASYM_PS (p : Nat) : Fld := ⟨(0x58 + p), 0x88, 0, 31, 0, 0⟩
def CSNS_TXN (p : Nat) : Fld := ⟨(0x58 + p), 0x8c, 0, 27, 16, 0⟩
def CSNS_RXC (p : Nat) : Fld := ⟨(0x58 + p), 0x8c, 0, 11, 0, 0⟩
def RPOC_N (p : Nat) : Fld := ⟨(0x58 + p), 0x90, 0, 10, 0, 0⟩
def BRT_US (p : Nat) : Fld := ⟨(0x58 + p), 0x94, 0, 15, 0, 0⟩
def TERR_N (p : Nat) : Fld := ⟨(0x58 + p), 0x98, 0, 31, 0, 0⟩
/-- The block registers of page TK, in offset order. -/
def regs : List RegDef :=
  [⟨0x40, .none, [⟨.wo, 3, 0, 0, .any⟩]⟩,
   ⟨0x44, .none, [⟨.rwe, 5, 5, 0, .any⟩, ⟨.rwe, 4, 4, 1, .any⟩, ⟨.rwe, 3, 2, 0, .between 0 2⟩]⟩,
   ⟨0x48, .none, [⟨.ro, 31, 28, 0, .any⟩, ⟨.ro, 27, 24, 0, .any⟩, ⟨.ro, 23, 20, 0, .any⟩, ⟨.ro, 19, 16, 0, .any⟩, ⟨.ro, 15, 12, 0, .any⟩, ⟨.ro, 11, 8, 0, .any⟩, ⟨.ro, 2, 2, 0, .any⟩, ⟨.ro, 1, 1, 0, .any⟩, ⟨.ro, 0, 0, 0, .any⟩]⟩,
   ⟨0x4c, .none, [⟨.rw, 7, 4, 0xf, .any⟩, ⟨.ro, 3, 0, 0, .any⟩]⟩,
   ⟨0x50, .none, [⟨.rw, 7, 0, 0x18, .between 1 255⟩]⟩,
   ⟨0x54, .none, [⟨.ro, 7, 0, 0, .any⟩, ⟨.ro, 15, 8, 0, .any⟩, ⟨.ro, 23, 16, 0, .any⟩, ⟨.ro, 31, 24, 0, .any⟩]⟩,
   ⟨0x58, .none, [⟨.rw, 1, 0, 0, .any⟩]⟩,
   ⟨0x5c, .lane, [⟨.ro, 23, 16, 0, .any⟩, ⟨.ro, 15, 8, 0x40, .any⟩, ⟨.ro, 7, 0, 0, .any⟩]⟩,
   ⟨0x60, .none, [⟨.rw, 15, 0, 0x64, .between 10 65535⟩]⟩,
   ⟨0x64, .none, [⟨.ro, 27, 16, 0x809, .any⟩, ⟨.ro, 11, 0, 0, .any⟩]⟩,
   ⟨0x68, .none, [⟨.rw, 15, 0, 0x3e8, .between 100 65535⟩]⟩,
   ⟨0x6c, .none, [⟨.ro, 31, 0, 0, .any⟩]⟩] ++
  [⟨0x70, .none, [⟨.ro, 31, 0, 0, .any⟩]⟩,
   ⟨0x74, .none, [⟨.ro, 31, 0, 0, .any⟩]⟩,
   ⟨0x78, .none, [⟨.rw, 15, 0, 0, .clear⟩]⟩,
   ⟨0x7c, .none, [⟨.rw, 15, 0, 0, .clear⟩]⟩,
   ⟨0x80, .none, [⟨.ro, 31, 0, 0, .any⟩]⟩,
   ⟨0x84, .none, [⟨.ro, 31, 0, 0, .any⟩]⟩,
   ⟨0x88, .none, [⟨.rw, 31, 0, 0, .any⟩]⟩,
   ⟨0x8c, .none, [⟨.ro, 27, 16, 0, .any⟩, ⟨.ro, 11, 0, 0, .any⟩]⟩,
   ⟨0x90, .none, [⟨.ro, 10, 0, 0, .any⟩]⟩,
   ⟨0x94, .none, [⟨.ro, 15, 0, 0, .any⟩]⟩,
   ⟨0x98, .none, [⟨.ro, 31, 0, 0, .any⟩]⟩]
end TK

namespace OPTP
def PCFG_PM (p : Nat) : Fld := ⟨0x44, (0x100 + 32 * p + 0x0), 0, 31, 30, 0⟩
def PCFG_COL (p : Nat) : Fld := ⟨0x44, (0x100 + 32 * p + 0x0), 0, 29, 28, 0⟩
def PCFG_FGRP (p : Nat) : Fld := ⟨0x44, (0x100 + 32 * p + 0x0), 0, 26, 24, 0⟩
def PCFG_NEMB (p : Nat) : Fld := ⟨0x44, (0x100 + 32 * p + 0x0), 0, 7, 4, 0⟩
def PCFG_NEMA (p : Nat) : Fld := ⟨0x44, (0x100 + 32 * p + 0x0), 0, 3, 0, 0⟩
def PSET_SB (p : Nat) : Fld := ⟨0x44, (0x100 + 32 * p + 0x4), 0, 15, 8, 0⟩
def PSET_SA (p : Nat) : Fld := ⟨0x44, (0x100 + 32 * p + 0x4), 0, 7, 0, 0⟩
def PMFS_FSB (p : Nat) : Fld := ⟨0x44, (0x100 + 32 * p + 0x8), 0, 31, 16, 0⟩
def PMFS_FSA (p : Nat) : Fld := ⟨0x44, (0x100 + 32 * p + 0x8), 0, 15, 0, 0⟩
def PST_STATE (p : Nat) : Fld := ⟨0x44, (0x100 + 32 * p + 0xc), 0, 19, 16, 0⟩
def PST_CAUSE (p : Nat) : Fld := ⟨0x44, (0x100 + 32 * p + 0xc), 0, 11, 8, 0⟩
def PST_DRV (p : Nat) : Fld := ⟨0x44, (0x100 + 32 * p + 0xc), 0, 4, 4, 0⟩
def PST_BLIND (p : Nat) : Fld := ⟨0x44, (0x100 + 32 * p + 0xc), 0, 3, 3, 0⟩
def PST_LIM (p : Nat) : Fld := ⟨0x44, (0x100 + 32 * p + 0xc), 0, 2, 2, 0⟩
def PST_MDEVB (p : Nat) : Fld := ⟨0x44, (0x100 + 32 * p + 0xc), 0, 1, 1, 0⟩
def PST_MDEVA (p : Nat) : Fld := ⟨0x44, (0x100 + 32 * p + 0xc), 0, 0, 0, 0⟩
def PMON_MONB (p : Nat) : Fld := ⟨0x44, (0x100 + 32 * p + 0x10), 0, 31, 16, 0⟩
def PMON_MONA (p : Nat) : Fld := ⟨0x44, (0x100 + 32 * p + 0x10), 0, 15, 0, 0⟩
def PIMS_IB (p : Nat) : Fld := ⟨0x44, (0x100 + 32 * p + 0x14), 0, 31, 16, 0⟩
def PIMS_IA (p : Nat) : Fld := ⟨0x44, (0x100 + 32 * p + 0x14), 0, 15, 0, 0⟩
def PVF_VFB (p : Nat) : Fld := ⟨0x44, (0x100 + 32 * p + 0x18), 0, 31, 16, 0⟩
def PVF_VFA (p : Nat) : Fld := ⟨0x44, (0x100 + 32 * p + 0x18), 0, 15, 0, 0⟩
/-- The block registers of page OPTP, in offset order. -/
def regs (p : Nat) : List RegDef :=
  [⟨0x100 + 32 * p + 0x0, .none, [⟨.rwl, 31, 30, 0, .between 0 2⟩, ⟨.rwl, 29, 28, 0, .any⟩, ⟨.rwl, 26, 24, 0, .any⟩, ⟨.rwl, 7, 4, 0, .between 0 4⟩, ⟨.rwl, 3, 0, 0, .between 0 4⟩]⟩,
   ⟨0x100 + 32 * p + 0x4, .none, [⟨.rwl, 15, 8, 0, .any⟩, ⟨.rwl, 7, 0, 0, .any⟩]⟩,
   ⟨0x100 + 32 * p + 0x8, .none, [⟨.rwl, 31, 16, 0, .any⟩, ⟨.rwl, 15, 0, 0, .any⟩]⟩,
   ⟨0x100 + 32 * p + 0xc, .none, [⟨.ro, 19, 16, 0, .any⟩, ⟨.ro, 11, 8, 0, .any⟩, ⟨.ro, 4, 4, 0, .any⟩, ⟨.ro, 3, 3, 0, .any⟩, ⟨.ro, 2, 2, 0, .any⟩, ⟨.ro, 1, 1, 0, .any⟩, ⟨.ro, 0, 0, 0, .any⟩]⟩,
   ⟨0x100 + 32 * p + 0x10, .none, [⟨.ro, 31, 16, 0, .any⟩, ⟨.ro, 15, 0, 0, .any⟩]⟩,
   ⟨0x100 + 32 * p + 0x14, .none, [⟨.ro, 31, 16, 0, .any⟩, ⟨.ro, 15, 0, 0, .any⟩]⟩,
   ⟨0x100 + 32 * p + 0x18, .none, [⟨.ro, 31, 16, 0, .any⟩, ⟨.ro, 15, 0, 0, .any⟩]⟩]
end OPTP

namespace OBK
def XCTL_TDIS : Fld := ⟨0x44, 0x444, 0, 6, 0, 8⟩
def CHCFG_RF (k : Nat) : Fld := ⟨0x44, (0x4c0 + 4 * k), 0, 13, 12, 0⟩
def CHCFG_BIAS (k : Nat) : Fld := ⟨0x44, (0x4c0 + 4 * k), 0, 11, 11, 0⟩
def CHCFG_GAIN (k : Nat) : Fld := ⟨0x44, (0x4c0 + 4 * k), 0, 10, 8, 0⟩
def CHCFG_MODE (k : Nat) : Fld := ⟨0x44, (0x4c0 + 4 * k), 0, 2, 0, 0⟩
/-- The block registers of page OBK, in offset order. -/
def regs : List RegDef :=
  [⟨0x444, .none, [⟨.rwl, 6, 0, 8, .between 1 64⟩]⟩] ++
  (List.range 16).map (fun k => ⟨0x4c0 + 4 * k, .none, [⟨.rwl, 13, 12, 0, .between 0 2⟩, ⟨.rwl, 11, 11, 0, .any⟩, ⟨.rwl, 10, 8, 0, .between 0 4⟩, ⟨.rwl, 2, 0, 0, .between 0 1⟩]⟩)
end OBK

/-- The page header of every assigned page but MAKER (R35). PID, PCAP and PSTAT.STATE are given by the page. -/
def headerRegs : List RegDef :=
  [⟨0x000, .none, [⟨.ro, 31, 0, 0, .any⟩]⟩,
   ⟨0x004, .none, [⟨.ro, 31, 0, 0, .any⟩]⟩,
   ⟨0x008, .none, [⟨.rw, 31, 31, 0, .any⟩, ⟨.wo, 1, 1, 0, .any⟩, ⟨.rwl, 0, 0, 0, .any⟩]⟩,
   ⟨0x00C, .none, [⟨.ro, 8, 8, 0, .any⟩, ⟨.ro, 3, 0, 0, .any⟩]⟩,
   ⟨0x010, .none, [⟨.w1c, 31, 0, 0, .any⟩]⟩,
   ⟨0x014, .none, [⟨.rw, 31, 0, 0, .any⟩]⟩,
   ⟨0x018, .none, [⟨.ro, 31, 24, 0, .any⟩, ⟨.ro, 19, 16, 0, .any⟩, ⟨.ro, 11, 0, 0, .any⟩]⟩,
   ⟨0x01C, .none, [⟨.rw, 15, 0, 0, .clear⟩]⟩,
   ⟨0x020, .none, [⟨.ro, 31, 24, 0, .any⟩, ⟨.ro, 23, 0, 0, .any⟩]⟩,
   ⟨0x024, .none, [⟨.ro, 23, 0, 0, .any⟩]⟩]

end Sys2Proof.Machine
end

