-- ==== Sys2Proof/Machine/State.lean ====
section
/-! DEFINITION. The state of the Galilaro 768: the register file, and the state behind the registers that the page chapters
describe (open slots, queues, retained blocks, sessions, links, records), as plain data, with the queue of waiting commands. -/

namespace Sys2Proof.Machine

/-- Domain time (R257): 48-bit seconds, nanoseconds, and the 32-bit fraction accumulator. -/
structure DTime where
  sec : Nat := 0
  ns : Nat := 0
  frac : Nat := 0
  deriving DecidableEq, Repr

/-- A reply's status (R41 code, 0x00 for accepted), read data, and the address or parameter it answers (R360, KIND 3). -/
structure Reply where
  status : Nat
  data : List Word := []
  t1 : Nat := 0
  deriving DecidableEq, Repr

/-- A session message that the hub executes in TSEQ order (R360, R361); `cert` is the read request for the maker certificate (R370). `good` is the outside fact a command of the burst is
judged with: the verdict of a signature, or the SEAL_N level. -/
inductive WinMsg where
  | write (addr : Nat) (ws : List Word) (good : Bool)
  | read (addr count : Nat) (bad : List Nat)
  | cert (addr count : Nat)
  | sub (page val : Nat)
  | keepAlive
  | close
  deriving DecidableEq, Repr

/-- One management session (R25, R358, R361). -/
structure Session where
  role : Role
  path : Path
  open_ : Bool := true             -- CONFIRM verified, or not needed while unowned (R358)
  next : Nat := 1                  -- next expected TSEQ (R361)
  cache : List (Nat × Reply) := [] -- the last 64 replies, newest first
  held : List (Nat × WinMsg) := [] -- messages ahead of the next TSEQ
  subs : List Nat := []            -- subscribed pages (R429)
  nseq : Nat := 1                  -- TSEQ of the next notice (R361)
  last : Nat := 0                  -- cycle of the last message (R361, R370)
  due : List Nat := []             -- pages whose notice is due (R35, R361)
  keys : List Word := []           -- key and salt, requester to hub, then hub to requester (R22, R358)
  deriving DecidableEq, Repr

/-- What leaves the hub: replies, notices, frames, messages and pulses, in the order sent. The model's own log. -/
inductive Out where
  | reply (sid tseq : Nat) (r : Reply) (ws : List Word)
  | accept (path : Path) (status sid : Nat) (lst : Word) (body : List Word)
  | notice (sid page pevt nseq : Nat) (t ws : List Word)
  | block (port ctx seq : Nat) (ws : List Word)
  | mgmt (port : Nat) (ws : List Word)
  | transport (port type body : Nat)
  | link (port type body : Nat)
  | train (port lane : Nat) (lv : List Int)
  | codeword (port lane csn : Nat) (lv : List Int)
  | bitmap (page : Nat) (ws : List Word)
  | ptpRx (kind : Nat) (t : Nat)
  | ptpTx (msg : PtpMsg) (corr : Int) (cls fcs : Nat)
  | followUp (kind t : Nat)
  | optPulse (port col width cur : Nat)
  | optDrive (port col cycles cur : Nat)
  | optOff (port : Nat)
  | ssiClk (bits : Nat)
  | shared (on : Bool) (loops iepes : List Nat)
  | twinSetup (msg : Nat) (ws : List Word)
  deriving DecidableEq, Repr

/-- Progress of one live schedule entry (R54, R63, R69): points passed, or windows opened for TRIG, and retirement. -/
structure EntProg where
  k : Nat := 0
  retired : Bool := false
  deriving DecidableEq, Repr

/-- A trigger window of a context (R68–R70): its entry, its samples, the next sample to emit, whether its entry is still live, and a
pending QUEUE1 trigger with its entry. -/
structure Win where
  entry : Nat
  first : Nat
  last : Nat
  next : Nat
  live : Bool := true
  pend : Option (Nat × Nat) := none
  deriving DecidableEq, Repr

/-- DAMASK's state behind SCH (R57–R70). -/
structure SchSt where
  prog : List (Nat × EntProg) := []
  stopAt : Option Nat := none         -- STOP point, ticks of domain time (R62)
  switchAt : Nat := 0                 -- instant of the last switch, 2^-16 ns (R68)
  trigN : List (Nat × Nat) := []      -- per TRIG entry, 1 + the sample of its newest trigger (R68)
  wins : List (Nat × Option Win) := []
  armedOnce : Bool := false           -- SCH has entered ARMED since the whole-hub reset (R403)
  rearm : Bool := false               -- a restored live table waits to be re-armed (R402)
  rearmAt : Option Nat := none        -- switch instant of a re-armed table, 2^-16 ns (R402)
  interp : Nat × Nat := (0, 0)        -- second, and channel-slots interpolated in it (R72)
  deriving DecidableEq, Repr

/-- A crossing of the mains input (R50): its timestamp in ns, the position the axis held after it, and the measured period then. -/
structure MainsPt where
  t : Nat
  pos : Nat
  per : Nat
  deriving DecidableEq, Repr

/-- Forward motion of the angle axis (R52–R54), in counts from turn 0: after `lo`, up to `hi`, between two instants in ns; `skip`: an index
correction jumped over it. -/
structure AngSeg where
  lo : Int
  hi : Int
  tlo : Nat
  thi : Nat
  skip : Bool := false
  deriving DecidableEq, Repr

/-- The axes' state behind AXS (R50–R55). -/
structure AxsSt where
  encA : Bool := false
  encB : Bool := false
  turn : Int := 0                      -- turns counted
  edgeT : Nat := 0                     -- timestamp of the last edge or SSI reading, minus EDLY, ns
  path : List AngSeg := []             -- forward motion that a point of the schedule may still need, and the newest, oldest first
  mainsT : Option Nat := none          -- timestamp of the last crossing, ns
  mainsPos : Nat := 0                  -- mains axis at that crossing, 2^-32 turn, MOFS added
  mainsGood : Nat := 0                 -- consecutive valid periods
  mainsLog : List MainsPt := []        -- the crossings before it, newest first
  mainsSlew : Bool := false            -- a difference found after MLOST is still being removed (R50)
  ssiLast : Option Int := none         -- previous absolute SSI position
  mainsOrg : Option Nat := none        -- cycle of the live table's origin
  mainsOrgS : Option Nat := none       -- cycle of the committed shadow's origin
  turnOrg : Option Int := none         -- turn of the live table's origin
  turnOrgS : Option Int := none        -- turn of the committed shadow's origin
  trgOut : Nat := 0                    -- output pads that are high
  ppsT : Option Nat := none
  mwRaised : Bool := false             -- MWNOMAINS raised for this absence of a period (R142)
  deriving DecidableEq, Repr

/-- What the bits of a bank meet from a tick on (R77, R82): the quads of negative polarity, whether they are blanked, and the inputs whose
bits are ignored. -/
structure Cond where
  tick : Nat := 0
  neg : Nat := 0
  blank : Bool := false
  route : Nat := 0
  deriving DecidableEq, Repr

/-- The replacement of bits ahead of a CIC (R133): the last counted bits, the newest lowest, how many of 256 they are, the first-order
accumulator, and whether the alternating pattern gives −1 next. -/
structure Demod where
  last : Nat := 0
  cnt : Nat := 0
  acc : Nat := 0
  alt : Bool := false
  deriving DecidableEq, Repr

/-- The two chains of a modulator (R132–R134, R141): integrators and combs modulo 2^88 and 2^32, the FIRs' delay lines in 2^-8 code
units, newest first, and the intermediate samples of a mains window with the first tick that each stands for, newest first. -/
structure Chain where
  dmM : Demod := {}
  mInts : List Nat := [0, 0, 0, 0, 0]
  mCombs : List Nat := [0, 0, 0, 0, 0]
  mLine : List Int := []
  win : List (Nat × Int) := []
  dmE : Demod := {}
  eInts : List Nat := [0, 0, 0, 0]
  eCombs : List Nat := [0, 0, 0, 0]
  eLine : List Int := []
  deriving DecidableEq, Repr

/-- A routing sequence in progress (R77): the affected inputs and the step reached (1: opened, 2: discharging). -/
structure Routing where
  mask : Nat
  step : Nat
  deriving DecidableEq, Repr

/-- SK240-compatible rotation of a bank's spare (R128): channel in its step (16: the spare's own step), phase, and Z. -/
structure Rot where
  ch : Nat := 16
  phase : Nat := 2
  z : Int := 0
  windDown : Bool := false
  paused : Bool := false
  deriving DecidableEq, Repr

/-- A bank's state behind its page; bank 48 is OBK (R77–R90, R117, R127–R130). -/
structure Bank where
  route : Option Routing := none
  grid : Nat := 0                      -- origin of the blanking grid, ticks of domain time (R81)
  swapped : Bool := false              -- a SWAP point has set the polarity since START
  blanking : Bool := false
  legs : Nat := 0                      -- inputs whose signal leg is found open (R86)
  effLevel : List (Nat × Nat) := []    -- per quad, LEVEL + 512 × LSNS in effect (R83)
  pendQ : Nat := 0                     -- quads whose LEVEL or LSNS waits for the next blanking window
  ilimTail : Nat := 0                  -- quads whose BDS continues after the limit (R84)
  clamp : Bool := false                -- BDS of the bank (R89)
  rot : Option Rot := none
  bg : Nat := 0                        -- slices whose accepted background result is in effect (R129)
  spareG : Nat := 0                    -- GAIN × 3 + RF of the spare's last step (R129)
  checking : Bool := false             -- the self-check of the bank's domain is under way (R125)
  judge : Nat := 0                     -- inputs judged afresh after a make step (R79)
  conds : List Cond := []              -- what the bits met, newest first (R82, R133)
  subCal : Nat := 0                    -- the substitute has settled: bit 0 on path M, bit 1 on path E (R127)
  held : Bool := false                 -- the spare's use is kept while the bank is stopped (R131)
  iRef : List (Nat × Option Nat) := [] -- per quad, IMEAS at the end of its last settle (R91, R345)
  cfgK : Option Nat := none            -- 10 ms interval of the last configuration change (R334)
  deriving DecidableEq, Repr

/-- An output period of an OBK channel that a ratio may use (R153): its grid instant, the mains position there, and its code. -/
structure RatioPt where
  g : Nat
  pos : Nat
  code : Int
  deriving DecidableEq, Repr

/-- A channel's filter and item state (R123, R138, R143, R150, R153, R334). -/
structure Chan where
  lastM : Option Nat := none           -- grid instant of the last emerged path M output, ticks
  endM : Option Nat := none            -- settle end on path M, ticks (R143)
  endE : Option Nat := none            -- settle end on path E, sample number
  mwLeft : Nat := 0                    -- MAINS OPEN points still to come before the settle's last one (R143)
  mwPt : Option Nat := none            -- the last of them that came
  mwW : Nat := 0                       -- length of the last mains window, ticks (R141)
  ovrOn : Option Nat := none           -- tick since which the channel over-ranges (R88)
  ovrPast : List (Nat × Nat) := []     -- earlier stretches of over-range, from and to, newest first
  opnFrom : Option Nat := none         -- OPN of the quad from this grid tick on (R86)
  items : List (Nat × Word) := []      -- grid instants and values of the valid items that emerged, newest first (R150)
  heldT : Option (Nat × Word) := none  -- the item of TCH the channel used last (R150)
  lastE : Option Nat := none           -- newest path E sample
  ratA : Option RatioPt := none        -- latest period with only colour A, or only colour B, lit (R153)
  ratB : Option RatioPt := none
  sums : List (Nat × Nat × Int) := []  -- intervals not yet summarised: interval, slots and sum of their codes, newest first (R334)
  disRun : Nat := 0                    -- consecutive disagreeing intervals
  deriving DecidableEq, Repr

/-- A stretch in which strings of a port were lit (R100): bit 0 A, bit 1 B, from tick `lo` to tick `hi`; none while they are lit. -/
structure LitSpan where
  mask : Nat
  lo : Nat
  hi : Option Nat := none
  deriving DecidableEq, Repr

/-- An optical port behind PST (R96–R105). Pairs hold string A first. Currents are in 10^-30 of 100 mA, light in sixteenths of 10^-30 of a
PWM period. -/
structure OptPort where
  lit : Nat := 0                       -- strings lit: bit 0 A, bit 1 B
  eff : Nat := 0                       -- codes in effect, SB × 256 + SA (R98)
  dark : Bool := false                 -- CONT port waiting for V_B (R96)
  lits : List LitSpan := []            -- what was lit lately, newest first (R96, R100)
  cur : Nat × Nat := (0, 0)            -- string currents, trimmed (R97, R99)
  rem : Nat × Nat := (0, 0)            -- what the dither of the lit times carries over (R98)
  drove : Nat := 0                     -- strings whose last drive interval was 2 µs or longer (R102)
  darkA : List Nat := []               -- the last dark periods with only A, or only B, lit, newest first (R102)
  darkB : List Nat := []
  darkAB : List (Nat × Nat) := []      -- the last dark periods of either colour, with what was lit
  comp : Nat := 0                      -- excess light of a probe still to be removed (R104)
  compB : Bool := false                -- the colour it is removed from
  share : Nat := 0                     -- what each pulse loses
  probing : Bool := false              -- the probe replaces the pulse of the period that starts
  probes : List (Nat × Option Nat) := []  -- probes with their compensation, from and to tick, newest first
  colB : Bool := false                 -- colour of the next probe
  tail : Bool := false                 -- BDS of the optical limiter continues (R101)
  blindRaised : Bool := false          -- BLIND_TIMEOUT raised for this blindness (R105)
  faultP : Option Nat := none          -- PWM period in which the port entered FAULT (R107)
  deriving DecidableEq, Repr

/-- One audit entry (R167), words E0–E7. -/
structure Audit where
  e : List Word
  deriving DecidableEq, Repr

/-- The sealed record in the metrology region (R163, R164): the fields it fixes, PDIG, its counter, and validity. -/
structure SealRec where
  fields : List (Fld × Nat)
  pdig : List Word
  cnt : Nat
  deriving DecidableEq, Repr

/-- An operation MTP has in progress (R163, R164, R172). -/
inductive MtrOp where
  | sealing (r : SealRec) (src role : Nat)
  | unsealing (src role : Nat)
  deriving DecidableEq, Repr

/-- MUSLIN's state behind MTR. -/
structure MtrSt where
  op : Option MtrOp := none
  record : Option SealRec := none
  recGood : Bool := true               -- the stored record's signature verifies
  audit : List Audit := []             -- newest first
  verify : Option (List Word) := none  -- the digest a VERIFY in progress will show (R172)
  loadDue : Bool := false              -- PD_MTR is up and MTP has not ended its BOOT: the record waits (R170)
  seals : List (Nat × Option Nat) := []  -- the SEALED intervals of slot times, 2^-16 ns, newest first: from, and to unless it lasts
  deriving DecidableEq, Repr

/-- One slot value: the engineering value (items only) and the sample word or item low word (R7, R149). -/
structure Val where
  value : Word := 0
  word : Word := 0
  deriving DecidableEq, Repr

/-- A slot instant owed by a context (R175): its time, its grid instant (ticks on path M, sample number on path E), the time
flags, and the values filled so far, by channel. -/
structure Slot where
  t : Nat
  g : Nat
  frn : Bool := false
  isl : Bool := false
  vals : List (Nat × Option Val) := []
  deriving DecidableEq, Repr

/-- A block the assembler has closed (R179): its slots, W5, and its LAST mark. -/
structure ClosedBlk where
  slots : List Slot
  w5 : Nat
  last : Bool := false
  eng : Bool := false                  -- its context's kind as fixed when it was armed (R177)
  deriving DecidableEq, Repr

/-- AFX history of one channel of a context (R219, R222). -/
structure Hist where
  h1 : Int := 0
  h2 : Int := 0
  h3 : Int := 0
  h : Nat := 0
  sprev : Nat := 0
  kprev : Nat := 0
  deriving DecidableEq, Repr

/-- A gap record's content (R189). -/
structure GapRec where
  reason : Nat
  t : Nat := 0
  w5 : Nat := 0
  slots : Nat := 0
  p1 : Nat := 0
  p2 : Nat := 0
  tlast : Nat := 0
  tag : List Word := []
  chans : Nat := 0                     -- channel count and path of the context's data blocks (R182)
  path : Nat := 0
  deriving DecidableEq, Repr

/-- A context's state behind STM, CDC and CNV (R179–R192, R219–R226, R246–R249). -/
structure Ctx where
  cur : List Slot := []                -- slots of the current block, oldest first
  w5 : Nat := 0                        -- slot period word of the current block
  closed : List ClosedBlk := []        -- closed blocks not yet in the queue, oldest first
  cmd : Nat := 0                       -- boundary command pending: 1 HOLD, 2 RESUME, 3 CLOSE (R192)
  leaving : Bool := false              -- the context drains when its window has completed (R70)
  tag : List Word := []                -- GMAC tag of the newest block (R187)
  secret : List Word := []             -- stream secret of the present key generation (R363)
  keyDue : Option Nat := none          -- a new stream session starts with the first block that begins here, 2^-16 ns (R363)
  chain : List Word := []              -- METRO chain value (R165)
  sinceCk : Nat := 0                   -- blocks since the last device checkpoint
  sinceMk : Nat := 0                   -- METRO blocks since the last metrology checkpoint
  blkMk : Nat := 0                     -- blocks since the last metrology checkpoint
  mkDue : Option Nat := none           -- a metrology checkpoint is due before the first block that begins here, 2^-16 ns
  ckDue : Bool := true                 -- a key generation starts: device checkpoint first (R187)
  ckLate : Bool := false               -- a device checkpoint that fell due did not fit (R245)
  gapNext : Bool := false              -- the next data block carries GAP
  restart : Bool := true               -- history is empty: next 0xA2 block carries RESTART (R224)
  comp : Nat := 0                      -- compressed blocks since the last reset
  chk : Nat := 0                       -- CHK window left, data blocks (R226)
  nch : Nat := 0                       -- channels of the codec state
  hist : List (Nat × Hist) := []
  decl : Option GapRec := none         -- open declined run (R246)
  wait : List GapRec := []             -- records waiting to be stored
  stopped : Option GapRec := none      -- gap of a schedule or assembler FAULT, its extent still open (R66, R193)
  acked : Option Nat := none           -- newest acknowledged sequence number (R243)
  newest : Option Nat := none          -- newest block stored
  ackT : Nat := 0                      -- slot time of the last slot of the newest acknowledged block (R336)
  rewind : Bool := false
  aon : Option GapRec := none          -- PD_AON record of the unacknowledged range (R249)
  deriving DecidableEq, Repr

/-- An item in a queue (R197, R198): descriptor context and type, its words, where its payload begins, and the LAST mark. -/
structure QItem where
  ctx : Nat
  type : Nat
  ws : List Word
  pay : Nat := 8
  last : Bool := false
  deriving DecidableEq, Repr

/-- A queue's content (R196): items, words already popped of the first one, whether the value word of an engineering item just
popped failed parity, the items a pending flush discards, the cycle in which a hold-off began (R202), the words of an item still being
written (R212), the mirrors that take a copy of it (R206), counted from queue 64, and of a mirror the contexts whose copies were being written at its flush
(R210). -/
structure Queue where
  items : List QItem := []
  popped : Nat := 0
  psn : Bool := false
  flushN : Nat := 0
  heldAt : Option Nat := none
  part : Nat := 0
  mirs : List (Fin 4) := []
  doomed : List Nat := []
  deriving DecidableEq, Repr

/-- An item between queue and release (R227): its engine, or the plain path; whether it is poisoned, whether an engine took it, and
whether it could be compressed (R213). -/
structure Flight where
  item : QItem
  eng : Option Nat
  psn : Bool
  taken : Bool
  elig : Bool
  deriving DecidableEq, Repr

/-- A codec engine (R228): state code, whether a TEST was started by ECLEAR, and the times of its mismatches (R225). -/
structure Engine where
  st : Nat := 0
  fromClear : Bool := false
  mismT : List Nat := []
  deriving DecidableEq, Repr

/-- Where a DECODE job that stopped goes on (R236): the map, selectors and parameters of its payload, the tags of the words still to
come, the histories before the present slot and its words so far in reverse, the bit reached in the present source, the bits of a source
already left, and whether the present source is the chained one. -/
structure DecSt where
  map : List Nat
  sels : List Nat
  ks : List Nat
  tags : List Nat
  hs : List Hist
  cur : List Word
  pos : Nat
  base : Nat
  chn : Bool
  deriving DecidableEq, Repr

/-- A descriptor job behind DSTAT (R234–R237): its descriptor words, the code words (ENCODE) or words (DECODE) put out before the
present buffers, its initial history, its engine while it runs, and a DECODE's place. -/
structure Job where
  dsc : List Word := []
  pos : Nat := 0
  hist : List (Nat × Hist) := []
  eng : Option Nat := none
  dec : Option DecSt := none
  deriving DecidableEq, Repr

/-- A retention segment (R241): class (0 free, 1 HOLD-NEW, 2 OVERWRITE-OLDEST, 3 freed by overwriting, R247) and words written. -/
structure Seg where
  cls : Nat := 0
  used : Nat := 0
  deriving DecidableEq, Repr

/-- A retained block's index entry (R242): where its words lie, and what gap records and egress need of it. -/
structure RBlk where
  ctx : Nat
  seq : Nat
  cls : Nat
  pieces : List (Nat × Nat)            -- (byte address, words) in order
  len : Nat
  slots : Nat
  t : Nat
  tlast : Nat
  tag : List Word
  w5 : Nat := 0                        -- slot period word, channel count and path, for the gap record that gives it up (R182)
  chans : Nat := 0
  path : Nat := 0
  sent : Bool := false
  acked : Bool := false
  gone : Bool := false                 -- given up under R247; some of its words still lie in a segment
  deriving DecidableEq, Repr

/-- CANVAS behind CNV (R240–R252). -/
structure CnvSt where
  mem : List Host.Cell := []           -- the 4 GiB byte space, canonical
  segs : List (Nat × Seg) := []
  blocks : List RBlk := []             -- oldest first
  openH : Option Nat := none           -- the segment each class filled last
  openO : Option Nat := none
  written : List Nat := []             -- class-O segments in the order written (R247)
  ringFirst : Option Nat := none       -- first and newest frame written since power-up (R250)
  ringLast : Option Nat := none
  arm75 : Bool := true
  arm95 : Bool := true
  armFull : Bool := true
  resend : List (Nat × Nat) := []      -- requested blocks, in order (R316)
  deriving DecidableEq, Repr

/-- The time unit behind TSU (R257–R276). -/
structure TsuSt where
  exch : List (Int × Int) := []        -- the last 16 delay exchanges, newest first: PTOFS and TKOFS
  mpds : List Nat := []                -- the mean path delays MPDF filters, newest first (R273, R274)
  fifo : List (Nat × Nat) := []        -- 16-entry transmit FIFO: kind, timestamp
  freq : Nat := 0x411AAAAAB            -- the last frequency-correcting increment (R262)
  setMade : Bool := false              -- a SET since power-up (R359)
  stepDone : Bool := false             -- the servo has made its start-up step (R402, R403)
  xArmed : Bool := true                -- XDIFF may be raised (R275)
  xIn : Option Nat := none             -- domain time, ns, since which the difference has been within XTOL
  deriving DecidableEq, Repr

/-- One lane of a link (R281, R284, R291, R294, R296): its transmitter taps, the statuses SM1, S0, SP1 last reported (2 bits each), what
this receiver asks of the far taps (RM1, R0, RP1, PRE), the failed attempts of its lone retrain, the LINK fields that wait to be sent, the
last index sent and received, the equaliser's settings, the far statuses last told, the measured skew in 2^-16 ns (R299), the fields of the
message being received, the successive codewords that did not decode, the CSN last received, and the first that was lost (R293). -/
structure Lane where
  cm1 : Int := 0
  c0 : Int := 64
  cp1 : Int := 0
  stat : Nat := 0
  tries : Nat := 0
  req : Nat := 0
  lq : List Nat := []
  y : Nat := 0
  ry : Nat := 0
  eq : Nat := 0
  far : Nat := 0
  skew : Int := 0
  rq : List Nat := []
  bad : Nat := 0
  last : Option Nat := none
  frm : Nat := 0
  deriving DecidableEq, Repr

/-- A codeword kept for replay (R292): its number, the lane it left on, and its words. -/
structure SentCw where
  csn : Nat
  lane : Nat
  ws : List Word
  deriving DecidableEq, Repr

/-- A link: 0 east, 1 west, 2 twin (R279–R299, R317, R318). Lane masks are 4 bits. -/
structure Link where
  st : Nat := 1                          -- block state of the twin link; a trunk port's is its page's
  failed : Bool := false                 -- bring-up failed and waits for its retry (R285)
  lanes : List (Nat × Lane) := []
  inv : Nat := 0                         -- receive positions whose polarity is inverted (R282)
  order : List (Nat × Nat) := []         -- the lane found at a receive position, where it is another (R282)
  rxact : Nat := 0                       -- lanes carrying codewords to this receiver
  txact : Nat := 0                       -- lanes this transmitter deals to
  retr : Nat := 0                        -- receive lanes in lone retrain
  park : Nat := 0                        -- receive lanes parked
  pcrx : Nat := 0                        -- receive and transmit lanes precoded
  pctx : Nat := 0
  qual : Nat := 0                        -- lanes adapt-qualified (R296)
  fbtx : Bool := false                   -- transmit and receive direction in NRZ
  fbrx : Bool := false
  fclk : Bool := false                   -- this receiver holds the forwarded clock (R283 FCOK)
  lost : Bool := false                   -- it has lost it in RUN, and says so until data resumes (R295)
  rxPam : Bool := false                  -- PAM and countdown of the last training frame received (R283)
  rxCd : Option Nat := none
  seen : Option (Nat × Nat) := none      -- the link message acted on last, and the lanes that have delivered it (R291)
  dropped : Bool := false                -- lost codewords of a dropped lane are still to come (R293, R299)
  stalled : Bool := false                -- the transmitter has stopped codewords after CLKLOST (R295)
  fcokFar : Bool := false
  rrdyOwn : Bool := false
  rrdyFar : Bool := false
  farMax : Option Nat := none            -- MAXF of the far CAPS (R290)
  quiet : Bool := false
  exiting : Bool := false                -- quiet idle is being left (R297)
  quietPrev : Nat := 0                   -- the transmit lanes before quiet idle
  rxQuiet : Bool := false                -- the receive direction is in quiet idle (R297)
  rxWake : Option Nat := none            -- domain time, ns, when it last left quiet idle (R296)
  txn : Nat := 0                         -- next CSN to send
  nextLane : Nat := 0                    -- lane after which the next codeword is dealt
  replay : List SentCw := []             -- unacknowledged codewords, oldest first
  held : List (List Word) := []          -- codewords that wait at the replay limit
  lim : Nat := 0                         -- unacknowledged codewords resent at the limit since the last LACK (R292)
  txW : Nat := 0                         -- index of the next word of the word stream (R288)
  txBuf : List Word := []                -- words not yet in a codeword
  msgs : List Nat := []                  -- transport messages waiting, 48 bits
  tcm : List Nat := []                   -- 12-bit pieces of the message being sent
  frames : List (Nat × List Word) := []  -- frames waiting: kind and words
  cur : List Word := []                  -- rest of the frame being sent
  rxc : Option Nat := none               -- highest CSN delivered in order
  reorder : List (Nat × List Word) := [] -- codewords received ahead
  nakd : List Nat := []                  -- CSNs asked for again
  rxWords : List Word := []              -- words the last codeword delivered
  rxW : Nat := 0                         -- index of the next word received, modulo 100 (R288, R289)
  rxT : Nat := 0                         -- TCM bits of the message being received
  met : Bool := false                    -- the far part's authority has been heard since data began, or none is heard (R306)
  t1s : List (Nat × Nat) := []           -- departures and arrivals of reference codewords by CSN[11:8] (R299)
  t4s : List (Nat × Nat) := []
  parts : List (Nat × Nat) := []         -- parts of the far end's times, by PART + 4 × DIR + 8 × REF
  dOut : Option Int := none              -- t2 − t1 and t4 − t3 of the exchange under way, 2^-16 ns
  dIn : Option Int := none
  exchs : List (Int × Int) := []         -- the last 64 exchanges: D and θ, 2^-16 ns
  since : Nat := 0                       -- exchanges since the active lanes last changed (R311)
  cred : Nat := 0                        -- CRED and SRCS last received (R317, R319)
  used : Nat := 0                        -- units sent
  freed : Nat := 0                       -- units freed since the last CREDIT
  grant : Nat := 256                     -- cumulative units granted
  own : List (Nat × List Word) := []     -- this hub's management and twin frames that wait for credit: kind and words
  pass : List (Nat × List Word) := []    -- passthrough frames that wait to leave on this link
  deficit : Int := 0                     -- words own frames are ahead of their share (R318)
  ownT : Option Nat := none              -- domain time, ns, of the last frame of this hub's own (R319)
  deriving DecidableEq, Repr

/-- The domain's state behind DOM (R302–R323). -/
structure DomSt where
  beats : List (Nat × List (Nat × Nat)) := []  -- per kind and port (head east 0, west 1; collector 2, 3): times (ns) and hops heard
  topoFwd : List (Nat × Option Nat) := []      -- per port of arrival, the last TOPOG whose BEACON was forwarded
  beaconGen : Option Nat := none               -- AGEN of the newest beacon, low 16 bits (R402)
  prehops : Nat := 255                         -- the lower head hop count before the split (R322)
  best : Option (Nat × Nat) := none            -- best CAND heard: PREHOPS and POS
  bestAt : Nat := 0                            -- CCLK cycle in which it was heard last (R322)
  keeperPos : Option Nat := none               -- the island's keeper, from TKEEP
  keepHops : List (Nat × Nat) := []            -- per port, hops of its TKEEP
  headEpoch : Option Nat := none               -- EPOCHS of the head's newest table frame (R313)
  oup : List (Nat × Option (Int × Nat)) := []  -- per port, O_up last received, and the CCLK cycle (R311)
  recPos : Option Nat := none                  -- head position the stored authority record names (R304)
  recSig : List Word := []                     -- its signature, A16–A39
  distSeen : List (Nat × Nat) := []            -- distribution frames forwarded: port of departure and words M0–M4
  deriving DecidableEq, Repr

/-- TWILL's state behind TWL (R326–R347). -/
structure TwlSt where
  strap : Nat := 0                     -- TWIN_ID: 0 single, 1 A, 2 B
  paired : Bool := false               -- the conditions of R330 hold
  pairFail : Bool := false             -- the partner failed a condition
  silent : Bool := true                -- no good codeword for 2 ms (R328)
  goodC : Nat := 0                     -- CCLK cycle of the last good codeword (R328)
  failRx : Option Nat := none          -- class of the partner's FAIL
  gap : Nat := 0                       -- CCLK cycles since a heartbeat quad was last present (R339)
  absent : Nat := 0                    -- CCLK cycles of absence counted (R340, R342)
  driving : Bool := false              -- a heartbeat quad of this unit drives (R340)
  key : List Word := []                -- keys and salts of the twin session (R330, R358)
  pdig : List Word := []               -- PDIG the partner reports
  pcode : Nat := 2                     -- the partner's ordering code: 2 KGL768-IM (R4)
  psealed : Bool := false              -- the partner is sealed (R4, R171)
  rx : List CkFrame := []              -- frames of the checkpoint being received (R337)
  backlog : List (Nat × CkBurst) := [] -- generation and burst, not yet reported applied
  sentGen : Nat := 0                   -- newest generation in a checkpoint sent
  fullDue : Bool := false              -- the next checkpoint is a FULL one
  fullReq : Bool := false              -- this standby asks for a FULL checkpoint
  ownSum : Option (Nat × List (Nat × Int)) := none   -- newest own and received summary: interval, N and mean by channel (R334)
  peerSum : Option (Nat × List (Nat × Int)) := none
  goodRuns : Nat := 0                  -- compared intervals in a row without disagreement
  lastCmp : Option Nat := none         -- the interval compared last
  thpShown : Bool := false             -- THP follows the heartbeat set (R339); until then it shows its reset value (R350)
  tkoT : Option Nat := none            -- instant of entering ACTIVE from TAKEOVER, 2^-16 ns (R332)
  deriving DecidableEq, Repr

/-- One general-log entry (R354), words L0–L3 with the page and code it repeats on. -/
structure LogEnt where
  page : Nat
  code : Nat
  src : Nat
  sec : Nat
  ns : Nat
  rep : Nat := 0
  arg : Nat := 0
  data : List Int := []                -- the values the entry's rule logs with it (R125, R129)
  deriving DecidableEq, Repr

/-- An ownership change on its way to flash (R356, R357). -/
inductive OwnOp where
  | install (anchor : List Word)
  | transfer (anchor : List Word) (ogen : Nat)
  | release
  deriving DecidableEq, Repr

/-- Trust behind SEC (R355–R370). -/
structure SecSt where
  anchor : List Word := []
  endorse : List Word := []
  secret : List Word := []
  shown : Option Nat := none           -- session whose reads show the secret in staging (R363)
  op : Option OwnOp := none
  chal : Option (Nat × Nat) := none    -- the valid maker challenge (R365)
  cert : List Word := []               -- the maker's certificate (R355)
  signing : Bool := false              -- a signature operation is under way (R370)
  deriving DecidableEq, Repr

/-- What MGP keeps of its sensors (R353): whether TWARN and MOIST are armed. -/
structure MgtSt where
  tArmed : Bool := true
  mArmed : Bool := true
  deriving DecidableEq, Repr

/-- Updates behind UPD (R377–R384). -/
structure UpdSt where
  segs : List (Nat × Nat) := []        -- per segment, its words written, bit by word (R385)
  checking : Bool := false             -- CHECK is under way
  target : Option Nat := none          -- processor of the INSTALL in progress
  tries : Nat := 0                     -- attempts at its region
  cont : List Word := []               -- the container it hands to the loader
  owed : Option Nat := none            -- INSTALLED (10) or INSTERR (11), raised once MGP runs (R380)
  deriving DecidableEq, Repr

/-- A schedule table in the start-up configuration (R401): its entries' words by 6 × entry + word, epoch and BASE. -/
structure SavedTable where
  ents : List (Nat × Nat)
  epoch : Nat
  base : Nat
  deriving DecidableEq, Repr

/-- The flash contents that survive every reset (R399, R401, R157, R302). -/
structure Flash where
  config : Option (List (Nat × Nat)) := none   -- start-up configuration, field codes and values
  table : Option SavedTable := none            -- its live table
  lin : List (Nat × Nat) := []                 -- saved linearisation sets
  regions : List (Nat × Bool) := []            -- image region valid, per processor (unlisted: valid)
  images : List (Nat × List Word) := []        -- the container a region holds; none: the factory's image (R376)
  deriving DecidableEq, Repr

/-- Power behind PWR (R387–R404). -/
structure PwrSt where
  vin : List Nat := []                 -- last samples of V_IN, newest first, 10 mV
  lock : Bool := false                 -- in undervoltage lockout
  linOp : Nat := 0                     -- LIN flash operation: 1 SAVE, 2 LOAD
  eco : Nat := 0                       -- economy mode in effect, bit g
  ecoPend : Nat := 0                   -- groups changing mode (R117)
  starting : Bool := false             -- start-up before its step 5 (R404)
  suOp : Bool := false                 -- SUCMD SAVE in progress
  l0Seen : Bool := false               -- the L0 record has been verified since power-up (R125)
  l0Bad : Bool := false                -- its signature failed
  pgN : Bool := true                   -- PG_N driven low (R400)
  deriving DecidableEq, Repr

/-- The machine. `regs` holds every stored field of the register window by `Fld.code`; `fresh` counts free values used
(the model's own); `out` is the log of what left the hub (the model's own); `pending` is the queue of waiting commands. -/
structure State where
  regs : List (Nat × Nat)
  cyc : Nat                            -- CCLK cycles since reset
  time : DTime                         -- domain time (R257)
  fresh : Nat
  sessions : List (Nat × Option Session)
  out : List Out
  sch : SchSt
  axs : AxsSt
  dieT : List (Nat × Int)              -- die temperatures the L0 model uses, 0.01 °C (R123)
  banks : List (Nat × Bank)
  chans : List (Nat × Chan)
  chains : List (Nat × Chain)          -- per modulator (R113)
  ports : List (Nat × OptPort)
  boostUp : Bool                       -- the boost stage has not failed since a port last started (R96)
  vb : Nat                             -- V_B in 2^-33 mV (R96)
  optK : Nat                           -- the optical limiter's factor k, in 10^-30 (R101)
  optM : Nat                           -- what k the measured power calls for
  mtr : MtrSt
  ctxs : List (Nat × Ctx)
  queues : List (Nat × Queue)
  notices : List Nat                   -- contexts of the items the codec's scheduler has notice of, oldest first (R208, R227)
  flights : List Flight
  engines : List (Nat × Engine)
  jobs : List (Nat × Job)
  cnv : CnvSt
  tsu : TsuSt
  links : List (Nat × Link)
  dom : DomSt
  twl : TwlSt
  log : List LogEnt                    -- general log, newest first (R354)
  mgt : MgtSt
  sec : SecSt
  upd : UpdSt
  flash : Flash
  pwr : PwrSt
  pending : List Instr
  deriving DecidableEq, Repr

/-- Why a step stops the machine. -/
inductive Fault where
  /-- The command names an instance the hub does not have (a bank above 48, a channel above 783, a link above 2, …): raised by
  the meanings whose operand names an instance. Safe: the spec gives the hub no such instance. -/
  | noSuchUnit
  deriving DecidableEq, Repr

/-- Why a command has no meaning. -/
inductive Refusal where
  /-- The command's meaning is not written: raised by the arms of `exec` that name it. Safe. -/
  | notModelled (mnemonic : String)
  deriving DecidableEq, Repr

/-- The machine right after reset: every register at its table's reset value (an empty register file), domain time 0 at the
reset increment (R257), CANVAS empty, no session, no command waiting. The values the spec does not give are named in the
assumption log (Fused, Stored, Image and Measured registers: DESIGN CHOICE 0). -/
def State.reset : State where
  regs := []
  cyc := 0
  time := {}
  fresh := 0
  sessions := []
  out := []
  sch := {}
  axs := {}
  dieT := []
  banks := []
  chans := []
  chains := []
  ports := []
  boostUp := true
  vb := 0
  optK := 10 ^ 30
  optM := 10 ^ 30
  mtr := {}
  ctxs := []
  queues := []
  notices := []
  flights := []
  engines := []
  jobs := []
  cnv := {}
  tsu := {}
  links := []
  dom := {}
  twl := {}
  log := []
  mgt := {}
  sec := {}
  upd := {}
  flash := {}
  pwr := {}
  pending := []

end Sys2Proof.Machine
end

