-- ==== Sys2Proof/Machine/Ops.lean ====
section
/-! DEFINITION. The named operations over the state: the register file by field, the tables of per-instance records, domain
time, and the log of what leaves the hub. -/

namespace Sys2Proof.Machine

/-! ### Pages (R32) -/

abbrev pDEV : Nat := 0x000
abbrev pPWR : Nat := 0x001
abbrev pCLK : Nat := 0x002
abbrev pSCH : Nat := 0x003
abbrev pAXS : Nat := 0x004
abbrev pEXC : Nat := 0x040
abbrev pFLT : Nat := 0x041
abbrev pLIN : Nat := 0x042
abbrev pMTR : Nat := 0x043
abbrev pOPT : Nat := 0x044
abbrev pSTM : Nat := 0x048
abbrev pQUE : Nat := 0x049
abbrev pCDC : Nat := 0x04A
abbrev pCTX : Nat := 0x04B
abbrev pCNV : Nat := 0x04C
abbrev pTSU : Nat := 0x050
abbrev pETH : Nat := 0x051
abbrev pTKE : Nat := 0x058
abbrev pTKW : Nat := 0x059
abbrev pDOM : Nat := 0x05A
abbrev pTWL : Nat := 0x068
abbrev pMGT : Nat := 0x070
abbrev pSEC : Nat := 0x071
abbrev pUPD : Nat := 0x072
abbrev pSVC : Nat := 0x073
abbrev pMAKER : Nat := 0x07F

/-! ### Block states (R37) -/

abbrev stOFF : Nat := 0
abbrev stIDLE : Nat := 1
abbrev stARMED : Nat := 2
abbrev stRUN : Nat := 3
abbrev stDRAIN : Nat := 4
abbrev stHOLD : Nat := 5
abbrev stTEST : Nat := 6
abbrev stFAULT : Nat := 7
abbrev stSEALED : Nat := 8

/-- Reset of PCTL.ENABLE (R35: 0 unless the page says otherwise): 1 on DEV (R368), PWR and CLK, on TSU (R276), TWL (R349), SVC
(R386), and on TKE, TKW, MGT, SEC and UPD (DEDUCED: their blocks work from power-up, R285 and R404, without a write). -/
def enableRst (page : Nat) : Nat :=
  if page = pDEV ∨ page = pPWR ∨ page = pCLK ∨ page = pTSU ∨ page = pTWL ∨ page = pSVC ∨ page = pTKE ∨ page = pTKW ∨
    page = pMGT ∨ page = pSEC ∨ page = pUPD then 1 else 0

/-- Reset of PSTAT.STATE (R35: page-defined): RUN on the pages that use it alone or while they answer normally (R368–R370,
R406, R407); otherwise IDLE where ENABLE resets to 1, and OFF where it resets to 0 (R38). -/
def stateRst (page : Nat) : Nat :=
  if page = pDEV ∨ page = pPWR ∨ page = pCLK ∨ page = pMGT ∨ page = pSEC then stRUN
  else if enableRst page = 1 then stIDLE else stOFF

/-! ### The page header (R35) -/

def hLOCK (page : Nat) : Fld := ⟨page, 0x008, 0, 31, 31, 0⟩
def hENABLE (page : Nat) : Fld := ⟨page, 0x008, 0, 0, 0, enableRst page⟩
def hBUSY (page : Nat) : Fld := ⟨page, 0x00C, 0, 8, 8, 0⟩
def hSTATE (page : Nat) : Fld := ⟨page, 0x00C, 0, 3, 0, stateRst page⟩
def hPEVT (page : Nat) : Fld := ⟨page, 0x010, 0, 31, 0, 0⟩
def hPEVTEN (page : Nat) : Fld := ⟨page, 0x014, 0, 31, 0, 0⟩
def hREASON (page : Nat) : Fld := ⟨page, 0x018, 0, 31, 24, 0⟩
def hSRC (page : Nat) : Fld := ⟨page, 0x018, 0, 19, 16, 0⟩
def hOFFSET (page : Nat) : Fld := ⟨page, 0x018, 0, 11, 0, 0⟩
def hREJCNT (page : Nat) : Fld := ⟨page, 0x01C, 0, 15, 0, 0⟩
def hPCT (page : Nat) : Fld := ⟨page, 0x020, 0, 31, 24, 0⟩
def hPOS (page : Nat) : Fld := ⟨page, 0x020, 0, 23, 0, 0⟩
def hLIM (page : Nat) : Fld := ⟨page, 0x024, 0, 23, 0, 0⟩

/-! ### The register file -/

/-- The value of a field. -/
def get (s : State) (f : Fld) : Nat := tget s.regs f.code f.rst

/-- Set a field; a value is kept modulo the field's width. -/
def put (s : State) (f : Fld) (v : Nat) : State :=
  { s with regs := tset s.regs f.code (v % 2 ^ f.width) f.rst }

/-- A one-bit field as a Bool. -/
def flag (s : State) (f : Fld) : Bool := get s f != 0

/-- Set a one-bit field. -/
def putB (s : State) (f : Fld) (b : Bool) : State := put s f b.toNat

/-- Count one more in a counter that stops at its largest value. -/
def bumpSat (s : State) (f : Fld) : State := put s f (min (get s f + 1) (2 ^ f.width - 1))

/-- Count one more in a counter that wraps. -/
def bumpMod (s : State) (f : Fld) : State := put s f (get s f + 1)

/-- Set bit `i` of a field. -/
def putBit (s : State) (f : Fld) (i : Nat) (b : Bool) : State :=
  put s f (if b then get s f ||| 2 ^ i else get s f - get s f % 2 ^ (i + 1) + get s f % 2 ^ i)

/-- Set several fields in order. -/
def puts (s : State) : List (Fld × Nat) → State
  | [] => s
  | (f, v) :: t => puts (put s f v) t

/-- The block state of a page. -/
def pstate (s : State) (page : Nat) : Nat := get s (hSTATE page)

/-- The page an entry of the register file belongs to. -/
def codePage (code : Nat) : Nat := code / (4096 * 16384 * 32)

/-- The byte offset an entry of the register file belongs to. -/
def codeOff (code : Nat) : Nat := code / (16384 * 32) % 4096

/-- Return the fields of a page that `sel` picks to their reset values. -/
def clearRegs (s : State) (sel : (page off : Nat) → Bool) : State :=
  { s with regs := s.regs.filter fun e => !sel (codePage e.1) (codeOff e.1) }

/-! ### Per-instance records -/

def bank (s : State) (n : Nat) : Bank := tget s.banks n {}
def setBank (s : State) (n : Nat) (b : Bank) : State := { s with banks := tset s.banks n b {} }
def chan (s : State) (c : Nat) : Chan := tget s.chans c {}
def setChan (s : State) (c : Nat) (v : Chan) : State := { s with chans := tset s.chans c v {} }
def oport (s : State) (p : Nat) : OptPort := tget s.ports p {}
def setOport (s : State) (p : Nat) (v : OptPort) : State := { s with ports := tset s.ports p v {} }
def ctx (s : State) (c : Nat) : Ctx := tget s.ctxs c {}
def setCtx (s : State) (c : Nat) (v : Ctx) : State := { s with ctxs := tset s.ctxs c v {} }
def queue (s : State) (q : Nat) : Queue := tget s.queues q {}
def setQueue (s : State) (q : Nat) (v : Queue) : State := { s with queues := tset s.queues q v {} }
def engine (s : State) (e : Nat) : Engine := tget s.engines e {}
def setEngine (s : State) (e : Nat) (v : Engine) : State := { s with engines := tset s.engines e v {} }
def job (s : State) (j : Nat) : Job := tget s.jobs j {}
def setJob (s : State) (j : Nat) (v : Job) : State := { s with jobs := tset s.jobs j v {} }
def link (s : State) (l : Nat) : Link := tget s.links l {}
def setLink (s : State) (l : Nat) (v : Link) : State := { s with links := tset s.links l v {} }
def session (s : State) (i : Nat) : Option Session := tget s.sessions i none
def setSession (s : State) (i : Nat) (v : Option Session) : State := { s with sessions := tset s.sessions i v none }
def progress (s : State) (e : Nat) : EntProg := tget s.sch.prog e {}
def setProgress (s : State) (e : Nat) (v : EntProg) : State :=
  { s with sch := { s.sch with prog := tset s.sch.prog e v {} } }

/-- Apply `f` for every index of a list, in order. -/
def forEach (l : List Nat) (f : State → Nat → State) (s : State) : State := l.foldl f s

/-- Append to the log of what leaves the hub. -/
def emit (s : State) (o : Out) : State := { s with out := s.out ++ [o] }

/-- The next free value's number, and the state after it is used. -/
def draw (s : State) : Nat × State := (s.fresh, { s with fresh := s.fresh + 1 })

/-! ### CANVAS bytes (R240) -/

/-- What a byte that nothing has written reads as (DESIGN CHOICE: the spec gives DRAM no content at power-up). -/
abbrev blankByte : BitVec 8 := 0#8

/-- The byte at an address. -/
def memGet (s : State) (a : Nat) : BitVec 8 := tget s.cnv.mem a blankByte

/-- Write a byte. -/
def memSet (s : State) (a : Nat) (b : BitVec 8) : State := { s with cnv := { s.cnv with mem := tset s.cnv.mem a b blankByte } }

/-- The word at an address, most significant byte first (DEDUCED from R180). -/
def memWord (s : State) (a : Nat) : Word :=
  memGet s a ++ memGet s (a + 1) ++ memGet s (a + 2) ++ memGet s (a + 3)

/-- Write bytes from an address up. -/
def memBytes (s : State) (a : Nat) : List (BitVec 8) → State
  | [] => s
  | b :: t => memBytes (memSet s a b) (a + 1) t

/-- The bytes of a word, most significant first. -/
def wordBytes (w : Word) : List (BitVec 8) := [w.extractLsb' 24 8, w.extractLsb' 16 8, w.extractLsb' 8 8, w.extractLsb' 0 8]

/-- Write a word, most significant byte first. -/
def memPut (s : State) (a : Nat) (w : Word) : State := memBytes s a (wordBytes w)

/-- Write words from an address up. -/
def memPuts (s : State) (a : Nat) (ws : List Word) : State := memBytes s a (ws.flatMap wordBytes)

/-- Read `n` words from an address up. -/
def memWords (s : State) (a n : Nat) : List Word := (List.range n).map fun i => memWord s (a + 4 * i)

/-! ### Domain time -/

/-- Domain time in nanoseconds. -/
def nowNs (s : State) : Nat := s.time.sec * 1000000000 + s.time.ns

/-- Domain time in 2^-16 ns, the resolution of slot times and table points. -/
def now16 (s : State) : Nat := nowNs s * 65536 + s.time.frac / 65536

/-- The 2^-16 ns of one second. -/
def sec16 : Nat := 1000000000 * 65536

/-- Signed reading of the low `n` bits of `v` (two's complement). -/
def toSigned (n v : Nat) : Int :=
  if v % 2 ^ n < 2 ^ (n - 1) then (v % 2 ^ n : Nat) else ((v % 2 ^ n : Nat) : Int) - 2 ^ n

/-- Two's complement of `x` in `n` bits. -/
def ofSigned (n : Nat) (x : Int) : Nat := (x % 2 ^ n).toNat

/-- Bit `i` of a number. -/
def bit (v i : Nat) : Bool := v / 2 ^ i % 2 != 0

/-- The indexes below `n` whose bit of `v` is set, rising. -/
def bitsOf (v n : Nat) : List Nat := (List.range n).filter fun i => bit v i

/-- A list cut or padded with zero words to `n`: digests, tags, signatures and endorsements have fixed lengths (R165, R187, R190, R362). -/
def exactly (n : Nat) (l : List Word) : List Word := (List.range n).map fun i => l.getD i 0#32

/-- The number with the bits in the list set. -/
def maskOf (l : List Nat) : Nat := l.foldl (fun a i => a ||| 2 ^ i) 0

/-- Whether `a` is newer than `b` by signed difference of `n` bits. -/
def newerBy (n a b : Nat) : Bool := a % 2 ^ n != b % 2 ^ n && decide ((a + 2 ^ n - b % 2 ^ n) % 2 ^ n < 2 ^ (n - 1))

end Sys2Proof.Machine
end

