-- ==== Sys2Proof/Machine/Operands.lean ====
section
/-! DEFINITION. The operand forms of a register access: bit fields of a word, the window address, the register a page has at an
offset and the instance its selector shows, and the word a register reads as. -/

namespace Sys2Proof.Machine

/-! ### Words -/

/-- Field [hi:lo] of a word. -/
def wbits (w : Word) (hi lo : Nat) : Nat := w.toNat / 2 ^ lo % 2 ^ (hi - lo + 1)

/-- The word with the given value. -/
def wd (v : Nat) : Word := BitVec.ofNat 32 v

/-- The word whose value is the two's complement of `x`. -/
def wdi (x : Int) : Word := BitVec.ofInt 32 x

/-- Words of a value of `n` words, most significant word first. -/
def wordsOf (n v : Nat) : List Word := ((List.range n).reverse).map fun i => wd (v / 2 ^ (32 * i))

/-- Value of a list of words, most significant word first. -/
def valOf (ws : List Word) : Nat := ws.foldl (fun a w => a * 2 ^ 32 + w.toNat) 0

/-! ### The window (R24, R27, R32) -/

/-- The page of a byte address. -/
def pageOf (addr : Nat) : Nat := addr / 0x1000

/-- The offset of a byte address within its page. -/
def offOf (addr : Nat) : Nat := addr % 0x1000

/-- The bank whose page this is, for pages 0x010–0x03F. -/
def bankOfPage (page : Nat) : Option Nat := if 0x10 ≤ page ∧ page ≤ 0x3F then some (page - 0x10) else none

/-- Whether the page map assigns the page (R32). -/
def assigned (page : Nat) : Bool :=
  decide (page ≤ 4) || (bankOfPage page).isSome ||
    [pEXC, pFLT, pLIN, pMTR, pOPT, pSTM, pQUE, pCDC, pCTX, pCNV, pTSU, pETH, pTKE, pTKW, pDOM, pTWL, pMGT, pSEC, pUPD, pSVC,
      pMAKER].contains page

/-- The power domains (bits of PDEN, R396) whose being on makes the page answer: any of them (R8, R32). -/
def pageDomains (page : Nat) : List Nat :=
  match bankOfPage page with
  | some n => [3 + n / 8]
  | none =>
    if page = pMGT ∨ page = pSEC ∨ page = pUPD ∨ page = pSVC then [1]
    else if page = pMTR then [2]
    else if page = pEXC then [9]
    else if page = pOPT then [10]
    else if page = pSCH ∨ page = pAXS ∨ page = pFLT ∨ page = pLIN ∨ page = pSTM ∨ page = pQUE then [11]
    else if page = pCDC ∨ page = pCTX then [12]
    else if page = pCNV then [13]
    else if page = pTKE then [14]
    else if page = pTKW then [15]
    else if page = pDOM then [14, 15]
    else if page = pTSU ∨ page = pETH ∨ page = pTWL then [16]
    else [0]

/-- The pages of a power domain (R32, R396). DOM goes with neither port alone. -/
def domainPages (d : Nat) : List Nat :=
  match d with
  | 0 => [pDEV, pPWR, pCLK]
  | 1 => [pMGT, pSEC, pUPD, pSVC]
  | 2 => [pMTR]
  | 9 => [pEXC]
  | 10 => [pOPT]
  | 11 => [pSCH, pAXS, pFLT, pLIN, pSTM, pQUE]
  | 12 => [pCDC, pCTX]
  | 13 => [pCNV]
  | 14 => [pTKE]
  | 15 => [pTKW]
  | 16 => [pTSU, pETH, pTWL]
  | d => if 3 ≤ d ∧ d ≤ 8 then (List.range 8).map fun k => 0x10 + 8 * (d - 3) + k else []

/-- Whether power domain `d` is on (PWR.PDST.PG). -/
def domainOn (s : State) (d : Nat) : Bool := bit (get s PWR.PDST_PG) d

/-- Whether a page answers (R8, R32). -/
def answers (s : State) (page : Nat) : Bool := (pageDomains page).any (domainOn s)

/-- The bank page or OBK a page shows as a bank: 0–47, or 48 for OPT. -/
def bankOf (page : Nat) : Option Nat := if page = pOPT then some 48 else bankOfPage page

/-! ### Registers of a page -/

/-- The OBK registers of page OPT (R112): those of BNK at 0x400 plus their offset, without QCFG, QMEAS and QSTAT, and with OBK's
own XCTL and CHCFG. -/
def obkRegs : List RegDef :=
  OBK.regs ++ ((BNK.regs.filter fun r => r.off != 0x44 && !(0x60 ≤ r.off && r.off ≤ 0x80) && !(0xC0 ≤ r.off && r.off < 0x100)).map
    fun r => { r with off := r.off + 0x400 })

/-- The block registers of a page. -/
def blockRegs (page : Nat) : List RegDef :=
  if (bankOfPage page).isSome then BNK.regs
  else if page = pDEV then DEV.regs else if page = pPWR then PWR.regs else if page = pCLK then CLK.regs
  else if page = pSCH then SCH.regs else if page = pAXS then AXS.regs else if page = pEXC then EXC.regs
  else if page = pFLT then FLT.regs else if page = pLIN then LIN.regs else if page = pMTR then MTR.regs
  else if page = pOPT then OPT.regs ++ (List.range 16).flatMap OPTP.regs ++ obkRegs
  else if page = pSTM then STM.regs else if page = pQUE then QUE.regs else if page = pCDC then CDC.regs
  else if page = pCTX then CTX.regs else if page = pCNV then CNV.regs else if page = pTSU then TSU.regs
  else if page = pETH then ETH.regs else if page = pTKE ∨ page = pTKW then TK.regs else if page = pDOM then DOM.regs
  else if page = pTWL then TWL.regs else if page = pMGT then MGT.regs else if page = pSEC then SEC.regs
  else if page = pUPD then UPD.regs else if page = pSVC then SVC.regs
  else []

/-- The register at an offset of a page. -/
def regAt (page off : Nat) : Option RegDef :=
  (if off < 0x40 then headerRegs else blockRegs page).find? fun r => r.off = off

/-- The L0 entry MGT.CSEL shows: modulator × 15 + gain × 3 + RF (R122, R369). -/
def l0Index (m g rf : Nat) : Nat := m * 15 + g * 3 + rf

/-- The instance a selector shows (R28, R61, R157, R193, R212, R233, R239, R256, R301, R369, R385). -/
def selIdx (s : State) (page : Nat) : Sel → Nat
  | .none => 0
  | .schEntry => (if get s SCH.EIDX_SEL = get s SCH.SSTAT_LIVE then 256 else 0) + get s SCH.EIDX_IDX
  | .linCh => get s LIN.LSEL_CH
  | .stmCtx => get s STM.CSEL_CTX
  | .queue => get s QUE.QSEL_Q
  | .ctxSeg => get s CTX.XBASE_SEG
  | .cdcJob => get s CDC.DSEL_JOB
  | .nmap => get s CDC.NMSEL_CTX * 2 + get s CDC.NMSEL_HALF
  | .cnvCtx => get s CNV.ASEL_CTX
  | .lane => get s (TK.LSEL_LANE (page - pTKE))
  | .l0 => l0Index (get s MGT.CSEL_MOD) (get s MGT.CSEL_GAIN) (get s MGT.CSEL_RF)
  | .updSeg => get s UPD.UBASE_SEG

/-- The reset value of a field instance: the table's, but for those that depend on the page or the instance (R35, R200). -/
def fldRst (page off idx : Nat) (f : FieldDef) : Nat :=
  if off = 0x008 ∧ f.lo = 0 then enableRst page
  else if off = 0x00C ∧ f.lo = 0 then stateRst page
  else if page = pQUE ∧ off = 0x44 then
    (if f.lo = 16 then queBaseRst idx else if f.lo = 0 then queDepthRst idx else f.rst)
  else f.rst

/-- The stored field of a register at an instance. -/
def fldOf (page off idx : Nat) (f : FieldDef) : Fld := ⟨page, off, idx, f.hi, f.lo, fldRst page off idx f⟩

/-- The bits of a register that some field holds. -/
def fieldMask (r : RegDef) : Nat := r.fields.foldl (fun a f => a ||| ((2 ^ (f.hi - f.lo + 1) - 1) * 2 ^ f.lo)) 0

/-- The page-event bits a page defines, with the four of the header (R35 and the page chapters). -/
def evtMask (page : Nat) : Nat :=
  let top (n : Nat) : Nat := 2 ^ (n + 1) - 2 ^ 8
  0xF + (if (bankOfPage page).isSome then top 14
  else if page = pPWR then top 13 else if page = pCLK then top 9 else if page = pSCH then top 12
  else if page = pAXS then top 13 + 0xFF0000 else if page = pEXC then top 9 else if page = pFLT then top 9
  else if page = pLIN then top 11 else if page = pMTR then top 14 else if page = pOPT then top 15
  else if page = pSTM then top 11 else if page = pQUE then top 15 else if page = pCDC then top 13
  else if page = pCNV then top 12 else if page = pTSU then top 14 else if page = pETH then top 11
  else if page = pTKE ∨ page = pTKW then top 17 else if page = pDOM then top 16 else if page = pTWL then top 17
  else if page = pMGT then top 11 else if page = pSEC then top 12 else if page = pUPD then top 11
  else if page = pSVC then top 9 else 0)

/-- PCAP of a page (R35 and the page chapters; SCH, AXS and EXC state none: 0, DESIGN CHOICE). MTR.PCAP[0] SEALABLE holds on
KGL768-IM only, ordering code 2 (R162, R368). -/
def pcap (s : State) (page : Nat) : Nat :=
  if (bankOfPage page).isSome then 0x3E
  else if page = pPWR then 3 else if page = pFLT then 3 else if page = pLIN then 1 else if page = pMTR then 2 + (if get s DEV.ORDC_CODE = 2 then 1 else 0)
  else if page = pOPT then 2 else if page = pSTM then 3 else if page = pQUE then 1 else if page = pCDC then 1
  else if page = pCNV then 3 else if page = pTSU then 7 else if page = pETH then 3
  else if page = pTKE ∨ page = pTKW then 7 else if page = pDOM then 3 else if page = pTWL then 3
  else if page = pSEC then 1 else if page = pUPD then 1 else if page = pSVC then 1 else 0

/-- PID of a page (R35): TYPE, INST, LVER 1. -/
def pid (page : Nat) : Nat :=
  match bankOfPage page with
  | some n => 0x0010 * 65536 + n * 256 + 1
  | none => page * 65536 + 1

/-- A register's stored fields put together; write-only fields read 0 (R39), reserved bits 0 (R40). -/
def assemble (s : State) (page off idx : Nat) (fs : List FieldDef) : Nat :=
  (fs.map fun f => match f.ty with
    | .wo => 0
    | _ => get s (fldOf page off idx f) * 2 ^ f.lo).sum

/-- The word a register of the header or of plainly stored fields reads as. -/
def storedWord (s : State) (page off : Nat) : Nat :=
  if off = 0 then pid page
  else if off = 4 then pcap s page
  else match regAt page off with
    | none => 0
    | some r => assemble s page off (selIdx s page r.sel) r.fields

/-- Put field values at their places. -/
def pack (l : List (Fld × Nat)) : Nat := (l.map fun e => e.2 % 2 ^ e.1.width * 2 ^ e.1.lo).sum

end Sys2Proof.Machine
end

