-- ==== Sys2Proof/Machine/Afx.lean ====
section
/-! DEFINITION. The AFX payload (R215–R222): prediction, selection, code words, encoding and decoding, as functions of the words and a
context's history. -/

namespace Sys2Proof.Machine

/-! ### Words -/

/-- The code of a sample word (R7). -/
def wordCode (w : Word) : Int := toSigned 24 (w.toNat / 256)

/-- The tag byte of a sample word. -/
def wordTag (w : Word) : Nat := w.toNat % 256

/-- Whether a tag byte carries SUP. -/
def tagSup (t : Nat) : Bool := bit t 4

/-! ### Prediction (R219) -/

/-- Clamp to the 24-bit range. -/
def clamp24 (x : Int) : Int := max (-0x800000) (min 0x7FFFFF x)

/-- A channel's history after a coded value. -/
def Hist.push (h : Hist) (x : Int) : Hist := { h with h1 := x, h2 := h.h1, h3 := h.h2, h := min 3 (h.h + 1) }

/-- The history empties; the adaptation state stays (R222). -/
def Hist.clear (h : Hist) : Hist := { h with h1 := 0, h2 := 0, h3 := 0, h := 0 }

/-- P0–P3 with their fallbacks. -/
def predP1 (h : Hist) : Int := if 1 ≤ h.h then h.h1 else 0
def predP2 (h : Hist) : Int := if 2 ≤ h.h then 2 * h.h1 - h.h2 else predP1 h
def predP3 (h : Hist) : Int := if 3 ≤ h.h then 3 * h.h1 - 3 * h.h2 + h.h3 else predP2 h

/-- N1 and N2: `nb` is the mapped neighbour's value at the slot, and its history before it, where its word lacks SUP. -/
def predN1 (h : Hist) (nb : Option (Int × Hist)) : Int :=
  match nb with
  | some p => p.1
  | none => predP1 h
def predN2 (h : Hist) (nb : Option (Int × Hist)) : Int :=
  match nb with
  | some p => if 1 ≤ h.h ∧ 1 ≤ p.2.h then h.h1 + (p.1 - p.2.h1) else predN1 h nb
  | none => predN1 h nb

/-- The prediction of a selector code 0–5, clamped. -/
def predict (sel : Nat) (h : Hist) (nb : Option (Int × Hist)) : Int :=
  clamp24 (match sel with
    | 0 => 0
    | 1 => predP1 h
    | 2 => predP2 h
    | 3 => predP3 h
    | 4 => predN1 h nb
    | _ => predN2 h nb)

/-- The mapped residue u. -/
def mapU (e : Int) : Nat := if 0 ≤ e then 2 * e.toNat else 2 * (-e).toNat - 1

/-- The residue of u. -/
def unmapU (u : Nat) : Int := if u % 2 = 0 then (u / 2 : Nat) else -((u / 2 : Nat) : Int) - 1

/-- The neighbour of channel `j` in a slot whose words are `ws`, by the map and the histories before the slot. -/
def neighbour (map : List Nat) (hs : List Hist) (ws : List Word) (j : Nat) : Option (Int × Hist) :=
  let n := map.getD j 0x3FF
  if n < j then
    let w := ws.getD n 0#32
    if tagSup (wordTag w) then none else some (wordCode w, hs.getD n {})
  else none

/-- u of channel `j`'s word under a selector. -/
def uOf (map : List Nat) (hs : List Hist) (ws : List Word) (sel j : Nat) : Nat :=
  mapU (wordCode (ws.getD j 0#32) - predict sel (hs.getD j {}) (neighbour map hs ws j))

/-- The histories after a slot. -/
def stepHist (hs : List Hist) (ws : List Word) : List Hist :=
  (hs.zipIdx).map fun p =>
    let w := ws.getD p.2 0#32
    if tagSup (wordTag w) then p.1 else p.1.push (wordCode w)

/-! ### Selection (R222) -/

/-- Sums A_s of one channel, with the number of its coded words. -/
abbrev Sums := Nat × List Nat

/-- The sums of every channel over the slots of a block. -/
def sums (map : List Nat) (acc : List Sums) (hs : List Hist) : List (List Word) → List Sums
  | [] => acc
  | ws :: t =>
    let acc1 := (acc.zipIdx).map fun p =>
      if tagSup (wordTag (ws.getD p.2 0#32)) then p.1
      else (p.1.1 + 1, (p.1.2.zipIdx).map fun a => a.1 + uOf map hs ws a.2 p.2)
    sums map acc1 (stepHist hs ws) t

/-- The selector with the smallest sum: the previous one on a tie, or the lowest code. -/
def chooseSel (prev : Nat) (a : List Nat) : Nat :=
  let m := a.foldl min (a.headD 0)
  if a.getD prev (m + 1) = m then prev else (a.findIdx? (· = m)).getD 0

/-- The Rice parameter of a channel with `n` coded words and sum `a`. -/
def chooseK (n a : Nat) : Nat :=
  if n = 0 then 0 else ((List.range 24).find? fun k => decide (a < n * 2 ^ (k + 1))).getD 23

/-! ### Code words and bit strings (R215, R220) -/

/-- A code word: value, length, and input words consumed once it is emitted (R236). -/
structure CodeWord where
  v : Nat
  n : Nat
  cons : Nat := 0
  deriving DecidableEq, Repr

/-- The code word of u with parameter k. -/
def riceWord (u k cons : Nat) : CodeWord :=
  let q := u / 2 ^ k
  if q < 32 then ⟨(2 ^ q - 1) * 2 * 2 ^ k + u % 2 ^ k, q + 1 + k, cons⟩ else ⟨(2 ^ 32 - 1) * 2 * 2 ^ 25 + u, 58, cons⟩

/-- A bit string, most significant bit first. -/
structure Bits where
  v : Nat := 0
  n : Nat := 0
  deriving DecidableEq, Repr

/-- Append a code word. -/
def Bits.add (b : Bits) (c : CodeWord) : Bits := ⟨b.v * 2 ^ c.n + c.v, b.n + c.n⟩

/-- The words of a bit string padded with zeros to whole 64-bit units. -/
def Bits.words (b : Bits) : List Word :=
  let u := (b.n + 63) / 64
  wordsOf (2 * u) (b.v * 2 ^ (64 * u - b.n))

/-- The bit string of words. -/
def Bits.ofWords (ws : List Word) : Bits := ⟨valOf ws, 32 * ws.length⟩

/-- The first `n` bits. -/
def Bits.take (b : Bits) (n : Nat) : Bits := if b.n ≤ n then b else ⟨b.v / 2 ^ (b.n - n), n⟩

/-! ### Encoding (R216–R218, R222) -/

/-- Split a payload into slots of `nch` words; `nslot` bounds them. -/
def slotsOf (nch : Nat) : Nat → List Word → List (List Word)
  | 0, _ => []
  | k + 1, ws => if ws = [] then [] else ws.take nch :: slotsOf nch k (ws.drop nch)

/-- The tag code words of a slot against the reference tags. -/
def tagWords (refs : List Nat) (ws : List Word) : List CodeWord :=
  (ws.zipIdx).map fun p =>
    let t := wordTag p.1
    if t = refs.getD p.2 0x80 then ⟨0, 1, 0⟩ else ⟨256 + t, 9, 0⟩

/-- The tag section over the slots of a block. -/
def tagSection (refs : List Nat) : List (List Word) → List CodeWord
  | [] => []
  | ws :: t => tagWords refs ws ++ tagSection (ws.map wordTag) t

/-- The residue section: one code word for each word without SUP; `at_` counts the words before the slot. -/
def residues (map sels ks : List Nat) (hs : List Hist) (at_ : Nat) : List (List Word) → List CodeWord
  | [] => []
  | ws :: t =>
    ((ws.zipIdx).flatMap fun p =>
      if tagSup (wordTag p.1) then []
      else [riceWord (uOf map hs ws (sels.getD p.2 0) p.2) (ks.getD p.2 0) (at_ + p.2 + 1)]) ++
    residues map sels ks (stepHist hs ws) (at_ + ws.length) t

/-- An encoded payload and the history after it. -/
structure Encoded where
  codes : List CodeWord
  hist : List Hist
  deriving DecidableEq, Repr

/-- Encode the slots of a block of `nch` channels from a history; `rst` empties it first and puts the map into the payload. -/
def encode (nch : Nat) (map : List Nat) (rst : Bool) (h0 : List Hist) (slots : List (List Word)) : Encoded :=
  let hs := (List.range nch).map fun j =>
    let h := h0.getD j {}
    if rst then h.clear else h
  let a := sums map (hs.map fun _ => (0, [0, 0, 0, 0, 0, 0])) hs slots
  let sels := (hs.zipIdx).map fun p => chooseSel p.1.sprev (a.getD p.2 (0, [])).2
  let ks := (sels.zipIdx).map fun p =>
    let c := a.getD p.2 (0, [])
    chooseK c.1 (c.2.getD p.1 0)
  let tags := slots.flatten.map wordTag
  let t0 := tags.headD 0x80
  let tuni := tags.all (· = t0)
  let head : Nat := 2 ^ 28 + rst.toNat * (2 ^ 27 + 2 ^ 26) + (if tuni then 2 ^ 25 + t0 * 2 ^ 17 else 0)
  let codes := [(⟨head, 32, 0⟩ : CodeWord)] ++
    (if rst then (List.range nch).map fun j => ⟨if map.getD j 0x3FF < j then map.getD j 0x3FF else 0x3FF, 10, 0⟩ else []) ++
    ((sels.zipIdx).map fun p => ⟨p.1 * 32 + ks.getD p.2 0, 8, 0⟩) ++
    (if tuni then [] else tagSection [] slots) ++ residues map sels ks hs 0 slots
  let hf := slots.foldl stepHist hs
  ⟨codes, (hf.zipIdx).map fun p => { p.1 with sprev := sels.getD p.2 0, kprev := ks.getD p.2 0 }⟩

/-- The payload words of an encoded block. -/
def Encoded.payload (e : Encoded) : List Word := (e.codes.foldl Bits.add {}).words

/-! ### Decoding (R217, R218, R221) -/

/-- A place in a bit string, and the string that follows it (the chained source of a job, R236). -/
structure Rd where
  b : Bits
  pos : Nat := 0
  next : Option Bits := none
  base : Nat := 0                      -- bits of strings already left
  chn : Bool := false                  -- the string is the chained source
  deriving DecidableEq, Repr

/-- Bits read so far over all strings. -/
def Rd.at (r : Rd) : Nat := r.base + r.pos

/-- `n` bits of the present string. -/
def Rd.bits (r : Rd) (n : Nat) : Option Nat :=
  if r.pos + n ≤ r.b.n then some (r.b.v / 2 ^ (r.b.n - r.pos - n) % 2 ^ n) else none

/-- The number of one-bits at a place, at most `fuel`. -/
def Rd.ones (r : Rd) : Nat → Nat
  | 0 => 0
  | f + 1 => if r.bits 1 = some 1 then Rd.ones { r with pos := r.pos + 1 } f + 1 else 0

/-- Error codes of R221. -/
abbrev eFMT : Nat := 1
abbrev eSEL : Nat := 2
abbrev eKPAR : Nat := 3
abbrev eMAP : Nat := 4
abbrev eTAG : Nat := 5
abbrev ePAD : Nat := 6
abbrev eVAL : Nat := 7
abbrev eSHORT : Nat := 8

/-- A fixed field of `n` bits. -/
def Rd.field (r : Rd) (n : Nat) : Except Nat (Nat × Rd) :=
  match r.bits n with
  | some v => .ok (v, { r with pos := r.pos + n })
  | none => .error eSHORT

/-- A Rice code word with parameter k. -/
def Rd.rice (r : Rd) (k : Nat) : Except Nat (Nat × Rd) :=
  let q := r.ones 32
  match Rd.bits { r with pos := r.pos + q } 1 with
  | none => .error eSHORT
  | some 1 => .error eVAL
  | some _ =>
    if q < 32 then
      match Rd.field { r with pos := r.pos + q + 1 } k with
      | .error e => .error e
      | .ok p => .ok (q * 2 ^ k + p.1, p.2)
    else
      match Rd.field { r with pos := r.pos + 33 } 25 with
      | .error e => .error e
      | .ok p => if p.1 ≤ 2 ^ 25 - 2 then .ok p else .error eVAL

/-- A tag entry: its flag, and the byte where it differs from the reference. -/
def Rd.tag (r : Rd) (ref : Nat) : Except Nat (Nat × Rd) :=
  match r.field 1 with
  | .error e => .error e
  | .ok p => if p.1 = 0 then .ok (ref, p.2) else p.2.field 8

/-- Whether what is left of the present string is more than one unit's zero padding (R221, PAD). -/
def Rd.padBad (r : Rd) : Bool :=
  decide ((r.pos + 63) / 64 * 64 < r.b.n) || r.b.v % 2 ^ (r.b.n - r.pos) != 0

/-- Read a code word; one that the present string cannot hold stands whole in the chained one, and what is left of the present string is
its padding (R236). -/
def Rd.orNext (r : Rd) (f : Rd → Except Nat (Nat × Rd)) : Except Nat (Nat × Rd) :=
  match f r, r.next with
  | .error 8, some b => if r.padBad then .error ePAD else f { b := b, base := r.base + r.b.n, chn := true }
  | x, _ => x

/-- Whether bits are left over when the last word is decoded: beyond the padding of the present string, or in a chained one not begun
(R221, R236). -/
def Rd.leftOver (r : Rd) : Bool := r.padBad || r.next.any fun b => b.n != 0

/-- Read a list of entries, one for each element of the list. -/
def Rd.list (f : Nat → Rd → Except Nat (Nat × Rd)) : List Nat → Rd → Except Nat (List Nat × Rd)
  | [], r => .ok ([], r)
  | j :: t, r =>
    match r.orNext (f j) with
    | .error e => .error e
    | .ok p =>
      match Rd.list f t p.2 with
      | .error e => .error e
      | .ok q => .ok (p.1 :: q.1, q.2)

/-- The tags of the words, slot by slot: `refs` are the tags of the previous slot, `cur` those of this slot in reverse. -/
def Rd.tags (nch : Nat) (refs cur : List Nat) : Nat → Rd → Except Nat (List Nat × Rd)
  | 0, r => .ok ([], r)
  | k + 1, r =>
    match r.orNext (Rd.tag · (refs.getD cur.length 0x80)) with
    | .error e => .error e
    | .ok p =>
      if !bit p.1 7 then .error eTAG
      else
        let c := p.1 :: cur
        match (if c.length = nch then Rd.tags nch c.reverse [] k p.2 else Rd.tags nch refs c k p.2) with
        | .error e => .error e
        | .ok q => .ok (p.1 :: q.1, q.2)

/-- A decoded header: reset bit, map, selectors, parameters, and the tags of all words. -/
structure Head where
  rst : Bool
  map : Option (List Nat)
  sels : List Nat
  ks : List Nat
  tags : List Nat
  deriving DecidableEq, Repr

/-- Decode everything before the residues. -/
def Rd.head (r : Rd) (nch nwords : Nat) : Except Nat (Head × Rd) :=
  match r.orNext (Rd.field · 32) with
  | .error e => .error e
  | .ok p =>
    let w := p.1
    let rst := bit w 27
    let mapp := bit w 26
    let tuni := bit w 25
    let tval := w / 2 ^ 17 % 256
    if w / 2 ^ 28 ≠ 1 ∨ w % 2 ^ 17 ≠ 0 ∨ rst ≠ mapp ∨ (!tuni ∧ tval ≠ 0) then .error eFMT
    else if tuni ∧ !bit tval 7 then .error eTAG
    else
      match (if mapp then Rd.list (fun j r => match r.field 10 with
          | .error e => .error e
          | .ok q => if q.1 = 0x3FF ∨ q.1 < j then .ok q else .error eMAP) (List.range nch) p.2 else .ok ([], p.2)) with
      | .error e => .error e
      | .ok m =>
        match Rd.list (fun _ r => match r.field 8 with
            | .error e => .error e
            | .ok q => if 6 ≤ q.1 / 32 then .error eSEL else if 23 < q.1 % 32 then .error eKPAR else .ok q) (List.range nch) m.2 with
        | .error e => .error e
        | .ok c =>
          match (if tuni then .ok (List.replicate nwords tval, c.2) else Rd.tags nch [] [] nwords c.2) with
          | .error e => .error e
          | .ok t => .ok (⟨rst, if mapp then some m.1 else none, c.1.map (· / 32), c.1.map (· % 32), t.1⟩, t.2)

/-- What decoding has produced: words, the error met, and where it ended: its place, the histories before the slot it stands in, and the
slot's words so far in reverse. -/
structure Decoded where
  out : List Word
  err : Option Nat
  rd : Rd
  hist : List Hist
  cur : List Word := []
  deriving DecidableEq, Repr

/-- Decode the words whose tags are listed: `hs` are the histories before the slot, `cur` the slot's words so far in reverse. -/
def decodeWords (nch : Nat) (map sels ks : List Nat) (hs : List Hist) (cur : List Word) (r : Rd) : List Nat → Decoded
  | [] => ⟨[], none, r, hs, cur⟩
  | t :: ts =>
    let j := cur.length
    let next (w : Word) (r1 : Rd) : Decoded :=
      let c := w :: cur
      let d := if c.length = nch then decodeWords nch map sels ks (stepHist hs c.reverse) [] r1 ts
        else decodeWords nch map sels ks hs c r1 ts
      { d with out := w :: d.out }
    if tagSup t then next (wd t) r
    else
      match r.orNext (Rd.rice · (ks.getD j 0)) with
      | .error e => ⟨[], some e, r, hs, cur⟩
      | .ok p =>
        let x := predict (sels.getD j 0) (hs.getD j {}) (neighbour map hs cur.reverse j) + unmapU p.1
        if x < -0x800000 ∨ 0x7FFFFF < x then ⟨[], some eVAL, r, hs, cur⟩
        else next (wd (ofSigned 24 x * 256 + t)) p.2

/-- Begin a payload of `nch × nslot` words: where its residues begin. `rst0` empties the history before, `map0` serves a payload without a
map. -/
def decodeStart (nch nslot : Nat) (rst0 : Bool) (map0 : List Nat) (h0 : List Hist) (r : Rd) : Except Nat (DecSt × Rd) :=
  match r.head nch (nch * nslot) with
  | .error e => .error e
  | .ok p =>
    let hs := (List.range nch).map fun j =>
      let h := h0.getD j {}
      if rst0 || p.1.rst then h.clear else h
    .ok ({ map := p.1.map.getD map0, sels := p.1.sels, ks := p.1.ks, tags := p.1.tags, hs := hs, cur := [], pos := p.2.pos, base := p.2.base,
           chn := p.2.chn }, p.2)

/-- Decode up to `lim` words from a place, and the place after them; the last words end with the padding check, and their histories take the
payload's selectors and parameters. -/
def decodeOn (nch lim : Nat) (p : DecSt) (r : Rd) : Decoded × DecSt :=
  let d := decodeWords nch p.map p.sels p.ks p.hs p.cur r (p.tags.take lim)
  let d1 := { d with hist := (d.hist.zipIdx).map fun q => { q.1 with sprev := p.sels.getD q.2 0, kprev := p.ks.getD q.2 0 } }
  (if d.err = none ∧ p.tags.length ≤ lim ∧ d.rd.leftOver then { d1 with err := some ePAD } else d1,
    { p with tags := p.tags.drop lim, hs := d.hist, cur := d.cur, pos := d.rd.pos, base := d.rd.base, chn := d.rd.chn })

/-- Decode the first `lim` of `nch × nslot` words of a payload. -/
def decode (nch nslot lim : Nat) (rst0 : Bool) (map0 : List Nat) (h0 : List Hist) (r : Rd) : Decoded :=
  match decodeStart nch nslot rst0 map0 h0 r with
  | .error e => ⟨[], some e, r, h0, []⟩
  | .ok p => (decodeOn nch lim p.1 p.2).1

end Sys2Proof.Machine
end

