-- ==== Sys2Proof/Machine/Crc.lean ====
section
/-! DEFINITION. CRC-32C (R186) over words, most significant byte first, and the Ethernet FCS (R270). -/

namespace Sys2Proof.Machine

/-- One bit of the reflected Castagnoli polynomial 0x1EDC_6F41: its reflection is 0x82F6_3B78. -/
def crcBit (c : Nat) : Nat := if c % 2 = 1 then (c / 2) ^^^ 0x82F63B78 else c / 2

/-- One byte. -/
def crcByte (c b : Nat) : Nat :=
  crcBit (crcBit (crcBit (crcBit (crcBit (crcBit (crcBit (crcBit (c ^^^ b))))))))

/-- One word, most significant byte first (R180). -/
def crcWord (c : Nat) (w : Word) : Nat :=
  (Word.bytes w).foldl (fun c b => crcByte c b.toNat) c

/-- CRC-32C of words: initial value and final XOR 0xFFFF_FFFF (R186). -/
def crc32c (ws : List Word) : Word := wd (ws.foldl crcWord 0xFFFFFFFF ^^^ 0xFFFFFFFF)

/-- One bit of the reflected polynomial of IEEE 802.3. -/
def fcsBit (c : Nat) : Nat := if c % 2 = 1 then (c / 2) ^^^ 0xEDB88320 else c / 2

/-- One byte. -/
def fcsByte (c b : Nat) : Nat :=
  fcsBit (fcsBit (fcsBit (fcsBit (fcsBit (fcsBit (fcsBit (fcsBit (c ^^^ b))))))))

/-- The frame check sequence of an Ethernet frame's bytes (R270; the CRC-32 of IEEE 802.3, PRESUMED, log entry 124). -/
def ethFcs (bs : List Nat) : Nat := bs.foldl fcsByte 0xFFFFFFFF ^^^ 0xFFFFFFFF

end Sys2Proof.Machine
end

