-- ==== Sys2Proof/Machine/Flags.lean ====
section
/-! DEFINITION. The flags of the hub and who sets them: page events and the notices they raise (R35), the general log (R354),
block states (R38), rejections (R41, R42, R33) and progress (R46). -/

namespace Sys2Proof.Machine

/-! ### The general log (R354) -/

/-- Source code of hardware in the log (R354, L2). -/
abbrev srcHW : Nat := 0xF

/-- A new entry at the front of the ring of 4,096. -/
def logPush (s : State) (page code src : Nat) (data : List Int) : State :=
  let n := draw s
  { n.2 with log := (⟨page, code, src, s.time.sec % 2 ^ 32, s.time.ns, 0, (Config.logArg n.1).toNat, data⟩ :: s.log).take 4096 }

/-- Whether an entry of this page and code, with the same values, repeats the newest one within 1 s. -/
def logRepeats (s : State) (page code : Nat) (data : List Int) : Bool :=
  match s.log with
  | [] => false
  | e :: _ => e.page = page && e.code = code && e.data = data && decide (nowNs s % (2 ^ 32 * 1000000000) ≤ e.sec * 1000000000 + e.ns + 1000000000)

/-- One more repeat of the newest entry, saturating at 255. -/
def logAgain (s : State) : State :=
  match s.log with
  | [] => s
  | e :: t => { s with log := { e with rep := min (e.rep + 1) 255 } :: t }

/-- A notice of `page` becomes due in every session subscribed to it (R35, R361: coalesced until it is sent). -/
def noticeDue (s : State) (page : Nat) : State :=
  { s with sessions := s.sessions.map fun e => (e.1, e.2.map fun x =>
      if x.subs.contains page ∧ !x.due.contains page then { x with due := x.due ++ [page] } else x) }

/-- Log an event: a repeat of the newest entry, or a new entry; the ring's first wrap raises LOGWRAP (DEDUCED from its name: an
entry overwrites the oldest one), which is logged as every event is and raises a notice where it is enabled (R35). -/
def logWith (data : List Int) (s : State) (page code src : Nat) : State :=
  if logRepeats s page code data then logAgain s
  else
    let s1 := logPush s page code src data
    if s.log.length < 4096 ∨ bit (get s1 (hPEVT pMGT)) 11 then s1
    else
      let s2 := logPush (putBit s1 (hPEVT pMGT) 11 true) pMGT 11 srcHW []
      if bit (get s2 (hPEVTEN pMGT)) 11 then noticeDue s2 pMGT else s2

/-- Log an event with no values of its own. -/
def logEv (s : State) (page code src : Nat) : State := logWith [] s page code src

/-! ### Page events (R35) -/

/-- Raise event bit `i` of a page, for source `src` of the log: the bit sets, a bit that becomes set is logged, and an enabled
one raises a notice (R35, R354). -/
def raiseAs (src : Nat) (s : State) (page i : Nat) : State :=
  if bit (get s (hPEVT page)) i then s
  else
    let s1 := logEv (putBit s (hPEVT page) i true) page i src
    if bit (get s1 (hPEVTEN page)) i then noticeDue s1 page else s1

/-- Raise an event that hardware finds. -/
def raise (s : State) (page i : Nat) : State := raiseAs srcHW s page i

/-! ### Block states (R38) -/

/-- Enter a block state: PEVT.STCHG where it changes, PEVT.FLT where the block enters FAULT. -/
def setPState (s : State) (page v : Nat) : State :=
  if pstate s page = v then s
  else
    let s1 := raise (put s (hSTATE page) v) page 1
    if v = stFAULT then raise s1 page 2 else s1

/-- Enter FAULT (R38): from any state but OFF, and from SEALED only where the page's own meaning says so. -/
def pageFault (s : State) (page : Nat) : State :=
  if pstate s page = stOFF ∨ pstate s page = stSEALED then s else setPState s page stFAULT

/-- Set or clear PSTAT.BUSY. -/
def setBusy (s : State) (page : Nat) (b : Bool) : State := putB s (hBUSY page) b

/-! ### Rejections (R41, R42, R33) -/

/-- Reject reasons (R41). -/
inductive Reason where
  | auth | size | rsvd | range | locked | state | busy
  deriving DecidableEq, Repr

/-- The reason's code. -/
def Reason.code : Reason → Nat
  | .auth => 4 | .size => 7 | .rsvd => 5 | .range => 2 | .locked => 3 | .state => 1 | .busy => 6

/-- The reason's precedence; 1 is the highest. -/
def Reason.prec : Reason → Nat
  | .auth => 1 | .size => 2 | .rsvd => 3 | .range => 4 | .locked => 5 | .state => 6 | .busy => 7

/-- A reason that holds, with the offset of the word that gives it. -/
abbrev Viol := Reason × Nat

/-- The reported one of several reasons (R41): the highest in the table, and of one reason the lowest offset. -/
def worst : List Viol → Option Viol
  | [] => none
  | v :: t => match worst t with
    | none => some v
    | some u => if u.1.prec < v.1.prec ∨ (u.1.prec = v.1.prec ∧ u.2 < v.2) then some u else some v

/-- A reason if a condition holds. -/
def viol (c : Bool) (r : Reason) (off : Nat) : List Viol := if c then [(r, off)] else []

/-- The source code of PREJ.SRC: session index, or 0xE for MGP firmware. -/
def srcCode : Src → Nat
  | .session sid _ => sid
  | .mgp => 0xE
  | .forged sid => sid
  | .token sid _ => sid

/-- Record a rejection on the page (R42): PREJ, PREJCNT, PEVT.REJ; a rejection with AUTH is logged whatever REJ held (R354). -/
def recordRej (s : State) (page : Nat) (src : Src) (r : Reason) (off : Nat) : State :=
  let had := bit (get s (hPEVT page)) 0
  let s1 := puts s [(hREASON page, r.code), (hSRC page, srcCode src), (hOFFSET page, off)]
  let s2 := raiseAs (srcCode src) (bumpSat s1 (hREJCNT page)) page 0
  if r = .auth ∧ had then logEv s2 page 0 (srcCode src) else s2

/-- Record in DEV.XREJ an access that no page can record (R33); `rej` says whether it sets DEV.PEVT.REJ. -/
def recordX (s : State) (page : Nat) (src : Src) (code : Nat) (rej : Bool) : State :=
  let had := bit (get s (hPEVT pDEV)) 0
  let s1 := puts s [(DEV.XREJ_REASON, code), (DEV.XREJ_SRC, srcCode src), (DEV.XREJ_PAGE, page)]
  let s2 := bumpSat s1 DEV.XREJCNT_COUNT
  if rej then
    let s3 := raiseAs (srcCode src) s2 pDEV 0
    if code = Reason.auth.code ∧ had then logEv s3 pDEV 0 (srcCode src) else s3
  else s2

/-! ### Progress (R46) -/

/-- An operation of `lim` positions starts; one of none completes at once. -/
def progStart (s : State) (page lim : Nat) : State :=
  let s1 := puts s [(hLIM page, lim), (hPOS page, 0), (hPCT page, if lim = 0 then 100 else 0)]
  if lim = 0 then raise s1 page 3 else s1

/-- An operation whose extent is not known starts. -/
def progUnknown (s : State) (page : Nat) : State := puts s [(hLIM page, 0), (hPOS page, 0), (hPCT page, 0xFF)]

/-- The operation reaches position `pos`; reaching LIM sets PDONE. -/
def progAt (s : State) (page pos : Nat) : State :=
  let lim := get s (hLIM page)
  let s1 := puts s [(hPOS page, pos), (hPCT page, if lim = 0 then 100 else 100 * pos / lim)]
  if pos = lim then raise s1 page 3 else s1

/-- The operation reaches its last position. -/
def progDone (s : State) (page : Nat) : State := progAt s page (get s (hLIM page))

end Sys2Proof.Machine
end

