-- ==== Sys2Proof/Machine/Filter.lean ====
section
/-! DEFINITION. The filter chain's tables and arithmetic: ROM responses and rates (R135, R136), group delay, settling (R143), the
two calibration layers (R123), and the modulator that serves a channel (R127, R128). -/

namespace Sys2Proof.Machine

/-! ### Exact rounding -/

/-- `n / d` rounded to nearest, ties to even (`d` > 0). -/
def roundEven (n : Int) (d : Nat) : Int :=
  let q := n / d
  let r := 2 * (n % d)
  if r < d then q else if r > d then q + 1 else if q % 2 = 0 then q else q + 1

/-- `n / d` rounded to nearest, ties up, for non-negative values. -/
def roundUpHalf (n d : Nat) : Nat := (2 * n + d) / (2 * d)

/-! ### ROM responses (R136, R148) -/

/-- One ROM response: taps, settle length, notch code, minimum phase, −3 dB mark, passband and stopband edges in 0.001 r, τ in
0.01 output periods, attenuation, and permitted rate indices. -/
structure Resp where
  k : Nat
  l : Nat
  notch : Nat
  minPh : Bool
  m3db : Bool
  pbe : Nat
  sbe : Nat
  tau : Nat
  att : Nat
  rates : Nat
  deriving DecidableEq, Repr

/-- Every rate index. -/
abbrev allRates : Nat := 0x1FFFF

/-- Rate indices 8–13. -/
abbrev notchRates : Nat := 0x3F00

/-- The table of R136, codes F00 to F15. -/
def respTable : List Resp :=
  [⟨115, 60, 0, false, false, 400, 500, 2975, 110, allRates⟩, ⟨115, 60, 0, true, false, 400, 500, 720, 110, allRates⟩,
   ⟨63, 34, 0, false, false, 300, 500, 1675, 100, allRates⟩, ⟨63, 34, 0, true, false, 300, 500, 410, 100, allRates⟩,
   ⟨23, 14, 0, false, false, 200, 500, 675, 90, allRates⟩, ⟨2, 4, 0, false, true, 320, 0, 150, 0, allRates⟩,
   ⟨179, 92, 1, false, false, 400, 500, 4575, 110, notchRates⟩, ⟨179, 92, 2, false, false, 400, 500, 4575, 110, notchRates⟩] ++
  [⟨255, 130, 3, false, false, 400, 500, 6475, 110, notchRates⟩, ⟨179, 92, 1, true, false, 400, 500, 980, 110, notchRates⟩,
   ⟨179, 92, 2, true, false, 400, 500, 980, 110, notchRates⟩, ⟨255, 130, 0, false, false, 450, 500, 6475, 120, allRates⟩,
   ⟨63, 34, 0, false, false, 250, 500, 1675, 110, allRates⟩, ⟨31, 18, 0, false, true, 150, 500, 875, 100, allRates⟩,
   ⟨15, 10, 0, true, false, 100, 500, 190, 80, allRates⟩, ⟨1, 3, 0, false, false, 0, 0, 125, 0, allRates⟩]

/-- The response of a code 0–15. -/
def resp (code : Nat) : Resp := respTable.getD code ⟨1, 3, 0, false, false, 0, 0, 125, 0, allRates⟩

/-- The CICD values of the rate table (R135), by index. -/
def cicdTable : List Nat :=
  [64, 96, 128, 192, 256, 384, 512, 1024, 1536, 3072, 6144, 7680, 12288, 15360, 30720, 51200, 61440]

/-- The rate index of a CICD. -/
def rateIdx (cicd : Nat) : Option Nat := cicdTable.findIdx? (· = cicd)

/-- Group delay τ_t in 0.01 ticks (R136). -/
def tau100 (code cicd : Nat) : Nat :=
  let r := resp code
  250 * (cicd - 1) + if r.minPh then 2 * cicd * (r.tau - 125) else 50 * cicd * (r.k - 1)

/-! ### Banks and channels -/

/-- The bank of a local channel; 48 is OBK. -/
def bankOfCh (ch : Nat) : Nat := ch / 16

/-- The page of a local channel's bank. -/
def chPage (ch : Nat) : Nat := bankPage (bankOfCh ch)

/-- The block state of a bank. -/
def bstate (s : State) (n : Nat) : Nat := pstate s (bankPage n)

/-- Whether a bank samples: RUN, TEST or SEALED (R90). -/
def producing (s : State) (n : Nat) : Bool := bstate s n = stRUN || bstate s n = stTEST || bstate s n = stSEALED

/-- A channel's MODE. -/
def chMode (s : State) (ch : Nat) : Nat := get s (BNK.CHCFG_MODE (bankOfCh ch) (ch % 16))

/-- A channel's GAIN code. -/
def chGain (s : State) (ch : Nat) : Nat := get s (BNK.CHCFG_GAIN (bankOfCh ch) (ch % 16))

/-- An OBK channel's RF code; 0 on analogue channels. -/
def chRf (s : State) (ch : Nat) : Nat := if bankOfCh ch = 48 then get s (OBK.CHCFG_RF (ch % 16)) else 0

/-- Whether a bank is in mains-window mode. -/
def mwin (s : State) (n : Nat) : Bool := flag s (BNK.FRESP_MWIN n)

/-- A mains window of a bank at the measured period, in ticks (R141, R142). -/
def mainsTicks (s : State) (n : Nat) : Nat := roundUpHalf (get s AXS.MPER_PER * get s (BNK.FRESP_MWN n) * 96) 15625

/-- The nominal time of a tick of domain time in 2^-16 ns, rounded to nearest (R48). -/
def tickTime (k : Nat) : Nat := roundUpHalf (k * 15625 * 65536) 96

/-- The axis at `t`, in 2^-16 ns, by one crossing's position and period; before the crossing it runs backward at that period. -/
def MainsPt.at_ (m : MainsPt) (t : Nat) : Nat :=
  let c := m.t * 65536
  if m.per = 0 then m.pos else if c ≤ t then m.pos + (t - c) * 65536 / m.per else m.pos - (c - t) * 65536 / m.per

/-- The axis at time `t`, in 2^-16 ns, by the newest crossing not after it; before the oldest one it runs backward. -/
def mainsBy : MainsPt → List MainsPt → Nat → Nat
  | m, [], t => m.at_ t
  | m, x :: r, t => if m.t * 65536 ≤ t then m.at_ t else mainsBy x r t

/-- The newest crossing. -/
def mainsNew (s : State) : MainsPt := ⟨s.axs.mainsT.getD 0, s.axs.mainsPos, get s AXS.MPER_PER⟩

/-- The mains axis at time `t` in 2^-16 ns: a 32-bit cycle count over a 32-bit phase; after the last crossing it runs at the last measured
period (R50). -/
def mainsAt16 (s : State) (t : Nat) : Nat := if s.axs.mainsT.isNone then s.axs.mainsPos else mainsBy (mainsNew s) s.axs.mainsLog t

/-- A bank's path M output period in ticks, for MWIN = 0 (R135). -/
def periodTicks (s : State) (n : Nat) : Nat := 2 * get s (BNK.FRESP_CICD n)

/-- A bank's path M output period in ticks: in mains-window mode MWN turns of the mains (R142). -/
def outTicks (s : State) (n : Nat) : Nat := if mwin s n then mainsTicks s n else periodTicks s n

/-- The settle length L in output periods (R136, R141). -/
def settleLen (s : State) (n : Nat) : Nat := if mwin s n then 2 else (resp (get s (BNK.FRESP_RESP n))).l

/-- A bank's group delay in 0.01 ticks; 157.5 ticks in mains-window mode (R141). -/
def bankTau100 (s : State) (n : Nat) : Nat :=
  if mwin s n then 15750 else tau100 (get s (BNK.FRESP_RESP n)) (get s (BNK.FRESP_CICD n))

/-- Whether bank group `g` is in economy mode by its ECO bit (R116); OBK never is. -/
def ecoBit (s : State) (n : Nat) : Bool := decide (n < 48) && bit (get s PWR.AFEMD_ECO) (n / 8)

/-! ### Settling (R143) -/

/-- Domain time in 0.01 ticks; a tick is 15,625/96 ns (R47). -/
def nowTicks100 (s : State) : Nat := now16 s * 9600 / (15625 * 65536)

/-- Domain time in whole ticks. -/
def nowTicks (s : State) : Nat := nowTicks100 s / 100

/-- The slot in progress on path M: the first grid instant that has not emerged, by its emergence instant g + τ_t + 12 and by the
outputs that have emerged (R138). In mains-window mode any tick may be an instant of the grid. -/
def slotInProgress (s : State) (ch : Nat) : Nat :=
  let n := bankOfCh ch
  let late := nowTicks100 s
  let lag := bankTau100 s n + 1200
  let p := if mwin s n then 1 else periodTicks s n
  let byTime := if late < lag then 0 else ((late - lag) / (100 * p) + 1) * p
  match (chan s ch).lastM with
  | none => byTime
  | some g => max byTime ((g / p + 1) * p)

/-- The path E sample in progress: it emerges 1,098 ticks after its instant (R140). -/
def sampleInProgress (s : State) : Nat :=
  let t := nowTicks s
  let byTime := if t < 1098 then 0 else (t - 1098) / 128 + 1
  match s.cnv.ringLast with
  | none => byTime
  | some n => max byTime (n + 1)

/-- The later of a running settle end and a new one. -/
def laterEnd (o : Option Nat) (e : Nat) : Option Nat :=
  match o with
  | none => some e
  | some x => some (max x e)

/-- The bits of SETST.SET: channels of the bank that are settling on path M. -/
def setSETST (s : State) (ch : Nat) (b : Bool) : State := putBit s (BNK.SETST_SET (bankOfCh ch)) (ch % 16) b

/-- Whether the path M output of a channel for grid instant `g` has emerged (R138). -/
def emerged (s : State) (ch g : Nat) : Bool := decide (g < slotInProgress s ch)

/-- Insert a number into a rising list without repeats. -/
def insertUp (x : Nat) : List Nat → List Nat
  | [] => [x]
  | y :: t => if x < y then x :: y :: t else if x = y then y :: t else y :: insertUp x t

/-- The path M slots that are open and wait for a channel, by grid instant, rising. -/
def inFlight (s : State) (ch : Nat) : List Nat :=
  ((s.ctxs.filter fun e => get s (STM.CCFG_PATH e.1) = 0).flatMap fun e =>
    ((e.2.closed.flatMap (·.slots) ++ e.2.cur).filter fun z => z.vals.any fun v => v.1 = ch && v.2 = none).map (·.g)).foldl
      (fun l g => insertUp g l) []

/-- The settle end of path M after a restart (R143): the grid instant L − 1 output periods after the slot in progress; in mains-window mode
the second point from it, of which `open_` lists those that have come, and the rest are awaited. Points that an earlier mains-window mode
awaited are no points of the new grid, and are awaited no more (DEDUCED, log entry 122). -/
def settleTo (s : State) (ch : Nat) (open_ : List Nat) : Chan :=
  let n := bankOfCh ch
  let c := chan s ch
  if mwin s n then
    match open_ with
    | _ :: p :: _ => { c with endM := laterEnd c.endM p }
    | [_] => { c with mwLeft := max c.mwLeft 1 }
    | [] => { c with mwLeft := max c.mwLeft 2 }
  else { c with endM := laterEnd c.endM (slotInProgress s ch + (settleLen s n - 1) * periodTicks s n), mwLeft := 0, mwPt := none }

/-- Restart a channel's settle on both paths, at the present instant; `open_`: the points in progress in mains-window mode (R143). -/
def restartFrom (s : State) (ch : Nat) (open_ : List Nat) : State :=
  setSETST (setChan s ch { settleTo s ch open_ with endE := laterEnd (chan s ch).endE (sampleInProgress s + 17) }) ch true

/-- Restart a channel's settle on both paths, at the present instant (R143). -/
def restartSettle (s : State) (ch : Nat) : State := restartFrom s ch (inFlight s ch)

/-- A MAINS OPEN point at tick `g` comes for a channel whose mains-window settle awaits points: the last one awaited is the settle's end
(R143). -/
def countPoint (s : State) (ch g : Nat) : State :=
  let c := chan s ch
  if c.mwLeft = 0 ∨ c.mwPt = some g then s
  else if c.mwLeft = 1 then setChan s ch { c with mwLeft := 0, mwPt := none, endM := laterEnd c.endM g }
  else setChan s ch { c with mwLeft := c.mwLeft - 1, mwPt := some g }

/-- Restart the settles of the channels of bank `n` in a mask. -/
def restartMask (s : State) (n mask : Nat) : State :=
  forEach (bitsOf mask 16) (fun s k => restartSettle s (16 * n + k)) s

/-! ### The serving modulator (R113, R127, R128) -/

/-- Whether the bank's spare is a substitute for this input now (R127): SUSE = 1 and the bank samples. -/
def substituted (s : State) (ch : Nat) : Bool :=
  let n := bankOfCh ch
  producing s n && get s (BNK.SPARE_SUSE n) = 1 && get s (BNK.SPARE_SCHN n) = ch % 16

/-- Whether the rotating spare serves this input now (R128, phases 2–4). -/
def rotated (s : State) (ch : Nat) : Bool :=
  match (bank s (bankOfCh ch)).rot with
  | none => false
  | some r => r.ch = ch % 16 && decide (2 ≤ r.phase) && !r.paused

/-- The slice that serves a channel: its own, or 16 for the spare. -/
def slice (s : State) (ch : Nat) : Nat := if substituted s ch || rotated s ch then 16 else ch % 16

/-- The L0 entry of a slice of the channel's bank at the channel's gain and RF (R122). -/
def l0Of (s : State) (ch sl : Nat) : Nat := l0Index (17 * bankOfCh ch + sl) (chGain s ch) (chRf s ch)

/-! ### Correction by L0 and L1 (R123) -/

/-- A code and whether the clamp of R123 acted. -/
structure Code where
  v : Int
  clamped : Bool
  deriving DecidableEq, Repr

/-- Clamp a rounded code by sign. -/
def clampCode (x : Int) : Code :=
  if x > 0x7FFFFF then ⟨0x7FFFFF, true⟩ else if x < -0x800000 then ⟨-0x800000, true⟩ else ⟨x, false⟩

/-- The arithmetic of R123, exactly: `xr` and `o` in 2^-8 code units, `o` in hundredths of them; `g0` 1.0 = 2^30; `tg` in 0.01
ppm/K; `dt` in 0.01 K. -/
def correct (xr o100 : Int) (g0 : Nat) (tg dt : Int) (gn : Nat) (off : Int) : Code :=
  let den : Nat := 100 * 256 * 2 ^ 30 * 10 ^ 10 * 2 ^ 30
  let num : Int := (xr * 100 - o100) * g0 * (10 ^ 10 + tg * dt) * gn + off * (100 * 2 ^ 30 * 10 ^ 10 * 2 ^ 30)
  clampCode (roundEven num den)

/-- The corrected code of `xr` by L0 entry `m`, at the temperature of its sensor, and L1 (R123). -/
def correctL0 (s : State) (m : Nat) (xr : Int) (gn : Nat) (off : Int) : Code :=
  let dt := tget s.dieT (get s (MGT.CTR_DIE m)) 0 - toSigned 16 (get s (MGT.CTR_TREF m))
  let o := toSigned 32 (get s (MGT.CO0_O0 m)) * 100 + toSigned 16 (get s (MGT.CTC_TO m)) * 16 * dt
  correct xr o (get s (MGT.CG0_G0 m)) (toSigned 16 (get s (MGT.CTC_TG m))) dt gn off

/-- The corrected code of a channel's output: L0 of the serving slice, or its accepted background values (R129), and L1. -/
def correctCh (s : State) (ch : Nat) (xr : Int) : Code :=
  let n := bankOfCh ch
  let sl := slice s ch
  let m := l0Of s ch sl
  let gn := get s (BNK.CALGN_GN n (ch % 16))
  let off := toSigned 32 (get s (BNK.CALOF_OF n (ch % 16)))
  if bit (bank s n).bg sl then
    correct xr (toSigned 32 (get s (MGT.CBGO_OBG m)) * 100) (get s (MGT.CBGG_GBG m)) 0 0 gn off
  else correctL0 s m xr gn off

/-! ### FLT page (R147, R148) -/

/-- Channels with LIN.LCFG.LEN = 1 (LNCH, R157): the listed LEN fields of the register file. -/
def lenCount (s : State) : Nat :=
  (s.regs.filter fun e => e.1 % 32 = 31 && e.1 / (32 * 16384) = 0x42044 && e.2 != 0).length

/-- LIN is in RUN while FLT is in RUN and at least one channel is linearised (R156). -/
def refreshLin (s : State) : State :=
  let on := pstate s pFLT = stRUN && lenCount s != 0
  if pstate s pLIN = stIDLE ∧ on then setPState s pLIN stRUN
  else if pstate s pLIN = stRUN ∧ !on then setPState s pLIN stIDLE
  else s

/-- FLT follows the banks: RUN while any bank or OBK is in RUN, TEST or SEALED, IDLE when none is (R147); LIN follows FLT. -/
def refreshFlt (s : State) : State :=
  let any := (List.range 49).any (producing s)
  refreshLin
    (if pstate s pFLT = stIDLE ∧ any then setPState s pFLT stRUN
    else if pstate s pFLT = stRUN ∧ !any then setPState s pFLT stIDLE
    else s)

/-- The multiply-accumulate load in 0.1 % of 31.457 G/s: every sampling bank's 17 modulators on path M, and path E (R146). -/
def macLoad (s : State) : Nat :=
  let tot := ((List.range 49).map fun n =>
    if producing s n then
      (if mwin s n then 0 else 17 * (resp (get s (BNK.FRESP_RESP n))).k * (6144000 / periodTicks s n)) + 17 * 16 * 48000
    else 0).sum
  tot * 1000 / (128 * 245760000)

/-- What the computed registers of page FLT read (R148). A bank that is OFF has no present response, and its channels' L and TAU read their
reset value 0 (DEDUCED, log entry 108). -/
def viewFLT (s : State) (off : Nat) : Option Nat :=
  let r := resp (get s FLT.RIDX_IDX)
  let ch := get s FLT.SETSEL_CH
  let n := bankOfCh ch
  let c := chan s ch
  if off = 0x44 then some (pack [(FLT.RINF0_K, r.k), (FLT.RINF0_L, r.l), (FLT.RINF0_NOTCH, r.notch), (FLT.RINF0_PHASE, r.minPh.toNat), (FLT.RINF0_M3DB, r.m3db.toNat)])
  else if off = 0x48 then some (pack [(FLT.RINF1_PBE, r.pbe), (FLT.RINF1_SBE, r.sbe)])
  else if off = 0x4C then some (pack [(FLT.RINF2_GD, r.tau), (FLT.RINF2_ATT, r.att)])
  else if off = 0x50 then some r.rates
  else if off = 0x58 then some (macLoad s)
  else if off = 0x60 then
    let remM :=
      if 0 < c.mwLeft then c.mwLeft + (inFlight s ch).length
      else match c.endM with
        | none => 0
        | some e =>
          if mwin s n then ((inFlight s ch).filter fun g => decide (g ≤ e)).length
          else (e + periodTicks s n - slotInProgress s ch) / periodTicks s n
    let remE := match c.endE with
      | none => 0
      | some e => e + 1 - sampleInProgress s
    some (pack [(FLT.SETRD_REMM, min remM 65535), (FLT.SETRD_REME, min remE 255), (FLT.SETRD_L, if bstate s n = stOFF then 0 else settleLen s n)])
  else if off = 0x64 then some (if bstate s n = stOFF then 0 else (roundEven (bankTau100 s n * 16) 100).toNat)
  else if off = 0x68 then some (if mwin s n then c.mwW else 0)
  else none

/-- ROM_CHECK (R147): a failed check of the coefficient ROM or the array moves FLT to FAULT and raises ROMERR. -/
def romCheck (s : State) (good : Bool) : State :=
  if good ∨ pstate s pFLT = stOFF then s else setPState (raise s pFLT 8) pFLT stFAULT

/-- DIE_TEMP_UPDATE (R123): the temperatures the L0 model uses from the next output on. -/
def execDieTempUpdate (temps : List Int) (s : State) : Host.Outcome State Fault Refusal :=
  if temps.length ≠ 6 then .fault .noSuchUnit
  else .next { s with dieT := (List.range 6).foldl (fun t i => tset t i (temps.getD i 0) 0) s.dieT }

end Sys2Proof.Machine
end

