-- ==== Sys2Proof/Machine/Float.lean ====
section
/-! DEFINITION. The evaluator's arithmetic (R151): an extended format with a 64-bit significand, each operation rounded to nearest,
ties to even, and binary32. No operand the hub can form comes near the 15-bit exponent's range, so the exponent is an integer. -/

namespace Sys2Proof.Machine

/-- A finite extended number: sign, magnitude and binary exponent. -/
structure XF where
  neg : Bool
  m : Nat
  e : Int
  deriving DecidableEq, Repr

/-- Significant bits of a magnitude. -/
def nbits (m : Nat) : Nat := if m = 0 then 0 else Nat.log2 m + 1

/-- A magnitude shifted right by `sh`, rounded to nearest, ties to even. -/
def shiftRound (m sh : Nat) : Nat := (roundEven m (2 ^ sh)).toNat

/-- Round to a 64-bit significand. -/
def XF.round (x : XF) : XF :=
  if nbits x.m ≤ 64 then x else ⟨x.neg, shiftRound x.m (nbits x.m - 64), x.e + (nbits x.m - 64 : Nat)⟩

/-- Product, rounded. -/
def XF.mul (x y : XF) : XF := XF.round ⟨x.neg != y.neg, x.m * y.m, x.e + y.e⟩

/-- The signed integer of a number at exponent `e` not above its own. -/
def XF.at (x : XF) (e : Int) : Int :=
  let v : Int := (x.m : Int) * 2 ^ (x.e - e).toNat
  if x.neg then -v else v

/-- Sum, rounded; an exact zero is positive unless both operands are negative. -/
def XF.add (x y : XF) : XF :=
  let e := min x.e y.e
  let v := x.at e + y.at e
  if v = 0 then ⟨x.neg && y.neg, 0, 0⟩ else XF.round ⟨v < 0, v.natAbs, e⟩

/-- An integer. -/
def XF.ofInt (v : Int) (e : Int) : XF := ⟨v < 0, v.natAbs, e⟩

/-- The quotient of two integers, `b` not 0, rounded: enough quotient bits are formed that the last one tells whether any remain. -/
def XF.div (a b : Int) : XF :=
  let n := a.natAbs * 2 ^ 100
  let q := n / b.natAbs
  let r := n % b.natAbs
  XF.round ⟨decide (a < 0) != decide (b < 0), 2 * q + (if r = 0 then 0 else 1), -101⟩

/-- A finite binary32. -/
def XF.ofF32 (w : Word) : XF :=
  let ex := wbits w 30 23
  let fr := wbits w 22 0
  if ex = 0 then ⟨wbits w 31 31 = 1, fr, -149⟩ else ⟨wbits w 31 31 = 1, 2 ^ 23 + fr, (ex : Int) - 150⟩

/-- Whether a binary32 is finite. -/
def f32Finite (w : Word) : Bool := wbits w 30 23 != 255

/-- Round to binary32, to nearest, ties to even; an overflow gives the infinity of the sign. -/
def XF.toF32 (x : XF) : Word × Bool :=
  let sg := if x.neg then 2 ^ 31 else 0
  if x.m = 0 then (wd sg, false)
  else
    let lsb := max ((nbits x.m : Int) + x.e - 24) (-149)
    let q := if lsb ≥ x.e then shiftRound x.m (lsb - x.e).toNat else x.m * 2 ^ (x.e - lsb).toNat
    let q1 := if q = 2 ^ 24 then 2 ^ 23 else q
    let l1 := if q = 2 ^ 24 then lsb + 1 else lsb
    if q1 < 2 ^ 23 then (wd (sg + q1), false)
    else if l1 + 150 ≥ 255 then (wd (sg + 0x7F800000), true)
    else (wd (sg + (l1 + 150).toNat * 2 ^ 23 + (q1 - 2 ^ 23)), false)

/-- The quiet NaN of R150 and R153. -/
def quietNaN : Word := 0x7FC00000#32

/-- One column of R151: p[j] = ((((c5 x + c4) x + c3) x + c2) x + c1) x + c0 in the stated order. -/
def hornerX (c : Nat → XF) (x : XF) : XF :=
  [4, 3, 2, 1, 0].foldl (fun p i => (p.mul x).add (c i)) (c 5)

/-- The polynomial of R151 with coefficients c i j. -/
def evalPoly (c : Nat → Nat → XF) (x t : XF) : XF :=
  let p (j : Nat) : XF := hornerX (fun i => c i j) x
  [2, 1, 0].foldl (fun y j => (y.mul t).add (p j)) (p 3)

end Sys2Proof.Machine
end

