-- ==== Sys2Proof/Machine/Chain.lean ====
section
/-! DEFINITION. The decimation chains (R132–R141): what enters a chain in place of ignored and blanked bits (R133), the CICs and
their register widths (R134), the ROM FIRs and the half-band filter (R136, R139, R140), and the mains window (R141). -/

namespace Sys2Proof.Machine

/-! ### The chain of a modulator -/

/-- The chains of modulator `m` (R113). -/
def chain (s : State) (m : Nat) : Chain := tget s.chains m {}

/-- Put the chains of a modulator. -/
def setChain (s : State) (m : Nat) (c : Chain) : State := { s with chains := tset s.chains m c {} }

/-- The modulator that serves a channel (R113, R132). -/
def modOf (s : State) (ch : Nat) : Nat := 17 * bankOfCh ch + slice s ch

/-- Whether a bank's modulators run at a quarter of MCLK: its group's economy mode in effect (R116). -/
def ecoNow (s : State) (n : Nat) : Bool := decide (n < 48) && bit s.pwr.eco (n / 8)

/-- Ticks of a bank's modulator cycle (R114): MCLK keeps its cycles in domain time whatever the increment (R10, R11), and a tick is one. -/
def modSpan (s : State) (n : Nat) : Nat := if ecoNow s n then 4 else 1

/-! ### What the bits of a bank meet (R77, R82) -/

/-- The quads' polarity, the blanking and the routing of a bank now. -/
def condNow (s : State) (n : Nat) : Cond :=
  { tick := nowTicks s
    neg := if n < 48 then maskOf ((List.range 4).filter fun q => flag s (BNK.QSTAT_POL n q)) else 0
    blank := (bank s n).blanking
    route := match (bank s n).route with
      | some r => r.mask
      | none => 0 }

/-- Keep what the bits of a bank meet from now on, where it has changed. -/
def noteCond (s : State) (n : Nat) : State :=
  let c := condNow s n
  let b := bank s n
  if { b.conds.head?.getD {} with tick := c.tick } = c then s else setBank s n { b with conds := c :: b.conds }

/-- What the bits of tick `t` met. -/
def condAt (b : Bank) (t : Nat) : Cond := (b.conds.find? fun c => decide (c.tick ≤ t)).getD {}

/-! ### The CIC input (R133) -/

/-- One cycle of the stream that enters a CIC, true for +1. An ignored bit of a routing sequence gives the alternating pattern; a
blanked bit gives the next bit of a first-order accumulator whose density is that of the last 256 counted bits; any other bit is
counted: it is +1 where it agrees with the polarity. Before any bit has counted the density is one half, and the accumulator keeps its
rest from one window to the next (DESIGN CHOICE, log entry 108). -/
def replaceBit (neg blank routed : Bool) (d : Demod) (b : Bool) : Demod × Bool :=
  if routed then ({ d with alt := !d.alt }, !d.alt)
  else if blank then
    let n := if d.cnt = 0 then 2 else d.cnt
    let ones := if d.cnt = 0 then 1 else (bitsOf d.last 256).length
    let a := d.acc % n + ones
    if n ≤ a then ({ d with alt := false, acc := a - n }, true) else ({ d with alt := false, acc := a }, false)
  else
    let x := b != neg
    ({ d with alt := false, last := (2 * d.last + x.toNat) % 2 ^ 256, cnt := min 256 (d.cnt + 1) }, x)

/-- The stream of a channel over cycles of its modulator, the last of which is the newest, of tick `at_`: each met the conditions of its own
tick. -/
def cicIn (s : State) (ch at_ : Nat) : Demod → List Bool → Demod × List Bool
  | d, [] => (d, [])
  | d, b :: t =>
    let n := bankOfCh ch
    let c := condAt (bank s n) (at_ - modSpan s n * t.length)
    let r := replaceBit (bit c.neg (ch % 16 / 4)) c.blank (bit c.route (ch % 16)) d b
    let q := cicIn s ch at_ r.1 t
    (q.1, r.2 :: q.2)

/-! ### CIC arithmetic (R134) -/

/-- The integrators take one input, modulo 2^`w`. -/
def integrate (w : Nat) : Nat → List Nat → List Nat
  | _, [] => []
  | x, i :: t => (i + x) % 2 ^ w :: integrate w ((i + x) % 2 ^ w) t

/-- The combs take one decimated value: their registers, and the difference they form, modulo 2^`w`. -/
def combs (w : Nat) : Nat → List Nat → List Nat × Nat
  | x, [] => ([], x)
  | x, p :: t =>
    let r := combs w ((x + 2 ^ w - p) % 2 ^ w) t
    (x :: r.1, r.2)

/-- Integrators, combs and outputs of a CIC after a stream: it gives an output at each cycle whose number before the newest one `out` picks
(R138). An output stands with that number; the newest comes first. -/
def cicRun (w : Nat) (out : Nat → Bool) (ints cs : List Nat) (outs : List (Nat × Int)) :
    List Bool → List Nat × List Nat × List (Nat × Int)
  | [] => (ints, cs, outs)
  | x :: t =>
    let i := integrate w (if x then 1 else 2 ^ w - 1) ints
    if out t.length then
      let r := combs w (i.getLast?.getD 0) cs
      cicRun w out i r.1 ((t.length, toSigned w r.2) :: outs) t
    else cicRun w out i cs outs t

/-- A CIC output in 2^-8 code units (R134), rounded to nearest, ties to even (DEDUCED, log entry 108). -/
def cicCode (v : Int) (d n : Nat) : Int := roundEven (v * 2 ^ 31) (d ^ n)

/-- The path M decimation in the bank's modulator cycles (R118, R132). -/
def decimM (s : State) (n : Nat) : Nat :=
  if mwin s n then (if ecoNow s n then 16 else 64)
  else if ecoNow s n then get s (BNK.FRESP_CICD n) / 4 else get s (BNK.FRESP_CICD n)

/-- The path E decimation (R132). -/
def decimE (s : State) (n : Nat) : Nat := if ecoNow s n then 16 else 64

/-- The whole ticks from an instant of path M's grid to the newest modulator cycle that its output takes, the group delay; the 12 ticks
after it are the pipeline (R138). -/
def tapTicks (s : State) (n : Nat) : Nat := bankTau100 s n / 100

/-- The tick of the last modulator cycle of a bank that begins not after tick `t`: an economy modulator converts on every fourth tick
(R114). -/
def modTick (s : State) (n t : Nat) : Nat := t - t % modSpan s n

/-- Whether a decimator of `d` cycles, phased by the cycle of tick `ph`, gives an output at the cycle of tick `t` (R138). -/
def decimates (s : State) (n d ph t : Nat) : Bool := t % (d * modSpan s n) = modTick s n ph % (d * modSpan s n)

/-- The delay in ticks of the CIC of order 5 at 96 kSa/s, from the instant an intermediate sample stands at to the cycle that makes it
(R139, R141). -/
def winDelay (s : State) (n : Nat) : Nat := if ecoNow s n then 148 else 157

/-- Path M of the modulator that serves a channel takes the cycles since it was last fed, up to that of the output for instant `g`: the CIC of
order 5 runs, and its outputs enter the FIR's delay line, or the record of intermediate samples in mains-window mode (R132–R134, R138,
R141). The intermediate samples stand at multiples of 64 ticks (DESIGN CHOICE, log entry 108). -/
def feedM (s : State) (ch g : Nat) (bits : List Bool) : State :=
  let n := bankOfCh ch
  let m := modOf s ch
  let x := chain s m
  let t := modTick s n (g + tapTicks s n)
  let at_ (k : Nat) : Nat := t - modSpan s n * k
  let p := cicIn s ch t x.dmM bits
  let ph := if mwin s n then winDelay s n else tapTicks s n
  let r := cicRun 88 (fun k => decimates s n (decimM s n) ph (at_ k)) x.mInts x.mCombs [] p.2
  let y := { x with dmM := p.1, mInts := r.1, mCombs := r.2.1 }
  setChain s m (if mwin s n then
      { y with win := ((r.2.2.map fun e => (at_ e.1 - winDelay s n, e.2)) ++ x.win).take 32770 }
    else { y with mLine := ((r.2.2.map fun e => cicCode e.2 (decimM s n) 5) ++ x.mLine).take 255 })

/-- Ticks of path E's group delay (R140). -/
abbrev tauE : Nat := 1086

/-- Path E of the modulator that serves a channel takes the cycles since it was last fed, up to that of sample `k` (R132, R140). -/
def feedE (s : State) (ch k : Nat) (bits : List Bool) : State :=
  let n := bankOfCh ch
  let m := modOf s ch
  let x := chain s m
  let t := modTick s n (128 * k + tauE)
  let p := cicIn s ch t x.dmE bits
  let r := cicRun 32 (fun j => decimates s n (decimE s n) tauE (t - modSpan s n * j)) x.eInts x.eCombs [] p.2
  setChain s m { x with dmE := p.1, eInts := r.1, eCombs := r.2.1
                        eLine := ((r.2.2.map fun e => cicCode e.2 (decimE s n) 4) ++ x.eLine).take 31 }

/-- The chain of a bank's new response starts (R137): the delay lines are empty, and the integrators run on (R134). -/
def restartChains (s : State) (n : Nat) : State :=
  forEach (List.range 17) (fun s k => setChain s (17 * n + k) { chain s (17 * n + k) with mLine := [], win := [] }) s

/-- The chains of every modulator after the power-on reset of the filters' domain (R8, R134). -/
def resetChains (s : State) : State := { s with chains := [] }

/-! ### The FIRs (R136, R139, R140) -/

/-- Coefficients that sum to `one` with those given first: the last one closes the sum (unity gain at 0 Hz, R134). -/
def closeTaps (one : Int) (front : List Int) : List Int := front ++ [one - front.foldl (· + ·) 0]

/-- The weight of a full-power or economy response's coefficients at unity gain: 1 for F15 and 2 for the 2-tap average F05 at full power,
which the table fixes; the ROM's own scale, which it does not, for the others. -/
def firOne (code : Nat) (eco : Bool) : Nat :=
  if (resp code).k = 1 ∧ !eco then 1 else if (resp code).k = 2 ∧ !eco then 2 else 2 ^ (Config.romScale + 2)

/-- The coefficients of a response (R136, R139): at full power F15 has one tap and F05 is a 2-tap average; a linear-phase response is
symmetric; the others, and every economy set, are as the ROM has them. The economy set adds 7.5 ticks, a part of a tap's `cicd` ticks: it
is one for each `cicd`, and of F15 it has two taps (DESIGN CHOICE, log entry 108). -/
def firTaps (code : Nat) (eco : Bool) (cicd : Nat) : List Int :=
  let k := (resp code).k
  let one : Int := firOne code eco
  if eco then closeTaps one ((List.range (max 1 (k - 1))).map (Config.ecoRom code cicd))
  else if k = 1 then [1]
  else if k = 2 then [1, 1]
  else if !(resp code).minPh then
    let side := (List.range (k / 2)).map (Config.firRom code)
    side ++ [one - 2 * side.foldl (· + ·) 0] ++ side.reverse
  else closeTaps one ((List.range (k - 1)).map (Config.firRom code))

/-- The half-band coefficients of path E (R140): at full power every other tap beside the middle one is 0, the middle one is half the
sum, and the rest are symmetric; the economy set (R139) is as the ROM has it. -/
def halfTaps (eco : Bool) : List Int :=
  let one : Int := 2 ^ (Config.romScale + 2)
  if eco then closeTaps one ((List.range 30).map (Config.halfRom true))
  else
    let side := (closeTaps (one / 4) ((List.range 7).map (Config.halfRom false))).flatMap fun c => [c, 0]
    side.dropLast ++ [one / 2] ++ side.dropLast.reverse

/-- A FIR over a delay line, newest first: the sum wraps at 48 bits, and the output is a 32-bit value in 2^-8 code units (R134), rounded
to nearest, ties to even, and held at its ends (DEDUCED, log entry 108). -/
def fir (taps : List Int) (one : Nat) (line : List Int) : Int :=
  let a := (taps.zip line).foldl (fun a p => a + p.1 * p.2) 0
  max (-0x80000000) (min 0x7FFFFFFF (roundEven (toSigned 48 (ofSigned 48 a)) one))

/-- Path M's output of a channel before L0, for MWIN = 0 (R134, R136). -/
def rawM (s : State) (ch : Nat) : Int :=
  let n := bankOfCh ch
  let code := get s (BNK.FRESP_RESP n)
  fir (firTaps code (ecoNow s n) (get s (BNK.FRESP_CICD n))) (firOne code (ecoNow s n)) (chain s (modOf s ch)).mLine

/-- Path E's output of a channel before L0 (R140). -/
def rawE (s : State) (ch : Nat) : Int :=
  let eco := ecoNow s (bankOfCh ch)
  fir (halfTaps eco) (2 ^ (Config.romScale + 2)) (chain s (modOf s ch)).eLine

/-! ### The mains window (R141) -/

/-- The weighted sum and count of the intermediate samples within a window of ticks from `a` to before `b` (R141): a sample stands for the 64
ticks from its own instant on, so that the last one of a window is known when its output emerges (DEDUCED, log entry 108), and one that
straddles an end weighs by its ticks inside. -/
def windowSum (a b : Nat) (l : List (Nat × Int)) : Int × Nat :=
  l.foldl (fun r e =>
    let w := min (e.1 + 64) b - max e.1 a
    (r.1 + e.2 * w, r.2 + w)) (0, 0)

/-- The output of a mains window before L0 (R141): the weighted sum, in a register of 64 bits (R134), divided by the weighted count. -/
def rawWindow (s : State) (ch a b : Nat) : Int :=
  let n := bankOfCh ch
  let r := windowSum a b (chain s (modOf s ch)).win
  roundEven (toSigned 64 (ofSigned 64 r.1) * 2 ^ 31) (r.2 * decimM s n ^ 5)

end Sys2Proof.Machine
end

