-- ==== Sys2Proof/Machine/Entry.lean ====
section
/-! DEFINITION. Schedule entries as the tables hold them (R57), the channel sets of contexts (R194), the twin role (R346) and the
tag byte (R7). -/

namespace Sys2Proof.Machine

/-! ### Schedule entries (R57, R58) -/

/-- An entry's six words, split into fields. -/
structure Ent where
  act : Nat
  axis : Nat
  path : Nat
  ctx : Nat
  param : Nat
  start : Nat
  step : Nat
  rep : Nat
  aux : Nat
  w0 : Nat
  deriving DecidableEq, Repr

abbrev actOPEN : Nat := 1
abbrev actSWAP : Nat := 2
abbrev actOPTP : Nat := 3
abbrev actTRIG : Nat := 4
abbrev actCKPT : Nat := 5
abbrev actEPOCH : Nat := 6

abbrev axTIME : Nat := 0
abbrev axMAINS : Nat := 1
abbrev axANGLE : Nat := 2

/-- Split six words into an entry. -/
def entOfWords (w0 w1 w2 w3 w4 w5 : Nat) : Ent :=
  ⟨w0 / 2 ^ 28 % 8, w0 / 2 ^ 26 % 4, w0 / 2 ^ 25 % 2, w0 / 2 ^ 16 % 64, w0 % 2 ^ 16, w2 * 2 ^ 32 + w1, w3, w4, w5, w0⟩

/-- Entry `i` of table `t` (0 A, 1 B). -/
def entAt (s : State) (t i : Nat) : Ent :=
  let g (k : Nat) : Nat := get s (SCH.ENT k (t * 256 + i))
  entOfWords (g 0) (g 1) (g 2) (g 3) (g 4) (g 5)

/-- The live table (SSTAT.LIVE). -/
def liveT (s : State) : Nat := get s SCH.SSTAT_LIVE

/-- The shadow table. -/
def shadowT (s : State) : Nat := 1 - liveT s

/-- Whether a SCH is in a state in which its live entries fire: RUN (R62, R81). -/
def schRun (s : State) : Bool := pstate s pSCH = stRUN

/-- Whether an entry's table is in force: a table has gone live, and SCH runs. -/
def tableLive (s : State) : Bool := flag s SCH.SSTAT_EPV && schRun s

/-- The indexes of the live table's entries that are not empty and have not retired. -/
def liveIdx (s : State) : List Nat :=
  if tableLive s then
    (List.range 256).filter fun i => (entAt s (liveT s) i).act != 0 && !(progress s i).retired
  else []

/-- Live entries. -/
def liveEnts (s : State) : List Ent := (liveIdx s).map (entAt s (liveT s))

/-- The banks a SWAP entry names. -/
def swapNames (e : Ent) (n : Nat) : Bool :=
  e.act = actSWAP && decide (e.aux / 256 % 64 ≤ n) && decide (n ≤ e.aux % 64)

/-! ### Contexts (R176, R194) -/

/-- Whether channel `ch` belongs to context `c`. -/
def ctxHas (s : State) (c ch : Nat) : Bool := bit (get s (STM.CSET_CH (ch / 32) c)) (ch % 32)

/-- The channels of a context, rising. -/
def ctxChans (s : State) (c : Nat) : List Nat :=
  (List.range 25).flatMap fun j => (bitsOf (get s (STM.CSET_CH j c)) 32).map fun k => 32 * j + k

/-- Whether a context has a channel of bank `n`. -/
def ctxHasBank (s : State) (c n : Nat) : Bool := get s (STM.CSET_CH (n / 2) c) / 2 ^ (16 * (n % 2)) % 65536 != 0

/-- A context's state (R192). -/
def cstate (s : State) (c : Nat) : Nat := get s (STM.CSTAT_STATE c)

/-! ### Twin role (R346) -/

abbrev rSINGLE : Nat := 0
abbrev rPAIRING : Nat := 1
abbrev rACTIVE : Nat := 2
abbrev rSTANDBY : Nat := 3
abbrev rTAKEOVER : Nat := 4
abbrev rYIELD : Nat := 5
abbrev rISOLATED : Nat := 6

/-- The unit's TWILL role. -/
def role (s : State) : Nat := get s TWL.TROLE_ROLE

/-- Whether the role lets quads and strings drive (R85, R346): SINGLE, ACTIVE or TAKEOVER. -/
def roleDrives (s : State) : Bool := role s = rSINGLE || role s = rACTIVE || role s = rTAKEOVER

/-! ### The tag byte (R7) -/

/-- The eight tags of a slot. V is always set on a slot the hub produces (R174). -/
structure Tags where
  ovr : Bool := false
  opn : Bool := false
  sup : Bool := false
  tko : Bool := false
  bds : Bool := false
  cal : Bool := false
  psn : Bool := false
  deriving DecidableEq, Repr

/-- The tag byte of a word with V = 1. -/
def Tags.byte (t : Tags) : Nat :=
  128 + t.ovr.toNat * 64 + t.opn.toNat * 32 + t.sup.toNat * 16 + t.tko.toNat * 8 + t.bds.toNat * 4 + t.cal.toNat * 2 + t.psn.toNat

/-- The data of a slot (R173): 0 under SUP, clamped by sign under OVR, the code otherwise. -/
def slotData (t : Tags) (code : Int) : Int :=
  if t.sup then 0 else if t.ovr then (if code < 0 then -0x800000 else 0x7FFFFF) else code

/-- The sample word (R7). -/
def sampleWord (t : Tags) (code : Int) : Word := wd (ofSigned 24 (slotData t code) * 256 + t.byte)

end Sys2Proof.Machine
end

