-- ==== Sys2Proof/Machine/Wire.lean ====
section
/-! DEFINITION. The line of a link (R280–R283, R286–R289, R291, R292, R317): training frames, transport messages and frames that enter the
word stream, which leaves in codewords that are kept for replay, and codewords as their receiver decodes them. Links are 0 east, 1 west,
2 twin. -/

namespace Sys2Proof.Machine

/-- A link's block state: its page's, or the twin link's own. -/
def linkSt (s : State) (l : Nat) : Nat := if l < 2 then pstate s (pTKE + l) else (link s l).st

/-- Whether a link carries data. -/
def linkRuns (s : State) (l : Nat) : Bool := linkSt s l = stRUN

/-- The frame length a link advertises (R290, R328). -/
def ownMax (l : Nat) : Nat := if l < 2 then 2057 else 4095

/-- MAXF.NEG; 0 until the far CAPS arrives. -/
def negMax (s : State) (l : Nat) : Nat :=
  match (link s l).farMax with
  | none => 0
  | some m => min (ownMax l) m

/-- The lanes of a mask, rising. -/
def lanesOf (m : Nat) : List Nat := bitsOf m 4

/-! ### The word stream (R288, R289) -/

/-- The 12 TCM bits of the next control word: a message begins every fourth one, a no-op where none waits. -/
def takeTcm (x : Link) : Nat × Link :=
  if x.txW % 100 = 0 then
    let m := x.msgs.headD 0
    (m / 2 ^ 36, { x with msgs := x.msgs.drop 1, tcm := [m / 2 ^ 24 % 4096, m / 2 ^ 12 % 4096, m % 4096] })
  else (x.tcm.headD 0, { x with tcm := x.tcm.drop 1 })

/-- One group of 25 words: a control word, then the rest of the frame being sent, the next frame's start, and idle words. -/
def group (x0 : Link) : Link :=
  let t := takeTcm x0
  let x := t.2
  let k := x.cur.length
  let pad (l : List Word) : List Word := l ++ List.replicate (24 - l.length) 0#32
  let r := match (if k < 24 then x.frames else []) with
    | f :: rest =>
      (2 ^ 31 + k * 2 ^ 26 + f.1 * 2 ^ 24 + f.2.length * 4096, pad (x.cur ++ f.2.take (24 - k)), f.2.drop (24 - k), rest)
    | [] => (0, pad (x.cur.take 24), x.cur.drop 24, x.frames)
  { x with txBuf := x.txBuf ++ wd (r.1 + t.1) :: r.2.1, cur := r.2.2.1, frames := r.2.2.2, txW := x.txW + 25 }

/-- Whether the stream holds something to send. -/
def Link.busy (x : Link) : Bool := !x.msgs.isEmpty || !x.tcm.isEmpty || !x.frames.isEmpty || !x.cur.isEmpty

/-- Groups until nothing waits; the first number bounds them. -/
def groups : Nat → Link → Link
  | 0, x => x
  | f + 1, x => if x.busy then groups f (group x) else x

/-- Idle groups until the stream holds `n` words. -/
def idleTo (n : Nat) : Nat → Link → Link
  | 0, x => x
  | f + 1, x => if x.txBuf.length < n then idleTo n f (group x) else x

/-- Enough groups for what waits in a link. -/
def groupBound (x : Link) : Nat :=
  x.cur.length / 24 + (x.frames.map fun f => f.2.length / 24 + 2).sum + 8 * x.msgs.length + 16

/-- Everything that waits enters the word stream, filled up with idle words to a whole codeword. -/
def fillStream (x : Link) : Link :=
  let x1 := groups (groupBound x) x
  idleTo ((x1.txBuf.length + 159) / 160 * 160) 8 x1

/-! ### The line (R280, R281, R286, R291) -/

/-- One bit of the scrambler x^58 + x^39 + 1: the output bit and the next state. -/
def scrBit (st : Nat) : Bool × Nat :=
  let b := bit st 57 != bit st 38
  (b, st * 2 % 2 ^ 58 + b.toNat)

/-- `n` scrambler bits as a number, most significant first. -/
def scrBits : Nat → Nat → Nat → Nat × Nat
  | 0, st, v => (v, st)
  | n + 1, st, v =>
    let r := scrBit st
    scrBits n r.2 (2 * v + r.1.toNat)

/-- Scramble, or descramble, words from a scrambler state. -/
def scramble (st : Nat) : List Word → List Word
  | [] => []
  | w :: t =>
    let r := scrBits 32 st 0
    (w ^^^ wd r.1) :: scramble r.2 t

/-- The scrambler state a codeword begins with: 46 one-bits, then its CSN (R286). -/
def scrInit (csn : Nat) : Nat := (2 ^ 46 - 1) * 4096 + csn % 4096

/-- α times an element of GF(2^10) (R286). -/
def gfDouble (v : Nat) : Nat := if 512 ≤ v then (2 * v) ^^^ 0x409 else 2 * v

/-- The product of two elements of GF(2^10). -/
def gfMul (a b : Nat) : Nat := ((List.range 10).reverse).foldl (fun acc i => gfDouble acc ^^^ if bit b i then a else 0) 0

/-- α^i. -/
def gfPow : Nat → Nat
  | 0 => 1
  | i + 1 => gfDouble (gfPow i)

/-- The generator with roots α^0 to α^29, highest coefficient first (R286). -/
def rsGen : List Nat :=
  (List.range 30).foldl (fun p i => List.zipWith (· ^^^ ·) (p ++ [0]) (0 :: p.map (gfMul (gfPow i)))) [1]

/-- The 30 parity symbols after the message symbols, by division by the generator. -/
def rsParity (g msg : List Nat) : List Nat :=
  msg.foldl (fun r m =>
    let f := m ^^^ r.headD 0
    List.zipWith (· ^^^ ·) (r.drop 1 ++ [0]) (g.map (gfMul f))) (List.replicate 30 0)

/-- The 514 message symbols of a codeword: CSN, LINK field and the scrambled words (R286). -/
def cwMsg (csn field : Nat) (ws : List Word) : List Nat :=
  let v := (csn % 4096 * 256 + field % 256) * 2 ^ 5120 + valOf (scramble (scrInit csn) ws)
  (List.range 514).map fun i => v / 2 ^ (10 * (513 - i)) % 1024

/-- The bits of a codeword in transmission order, each symbol most significant bit first. -/
def cwBits (csn field : Nat) (ws : List Word) : List Bool :=
  let m := cwMsg csn field ws
  (m ++ rsParity (rsGen.drop 1) m).flatMap fun y => ((List.range 10).reverse).map (bit y)

/-- The level index of a bit pair, its first bit the more significant (R280). -/
def pamIndex (hi lo : Bool) : Nat :=
  match hi, lo with
  | false, false => 0
  | false, true => 1
  | true, true => 2
  | true, false => 3

/-- The level of an index (R280). -/
def pamLevel (x : Nat) : Int := 2 * (x : Int) - 3

/-- The index a precoding transmitter sends for `x` after it sent `y` (R281). -/
def precode (y x : Nat) : Nat := (x + 4 - y % 4) % 4

/-- PAM4 levels of bits, precoded where asked, and the last index sent. -/
def pamLine (pre : Bool) : Nat → List Bool → List Int × Nat
  | y, a :: b :: t =>
    let x := if pre then precode y (pamIndex a b) else pamIndex a b
    let r := pamLine pre x t
    (pamLevel x :: r.1, r.2)
  | y, _ => ([], y)

/-- The levels of bits on a lane (R280, R281): in NRZ +3 for 1 and −3 for 0, never precoded (R282, R285, R295). -/
def lineOf (nrz pre : Bool) (y : Nat) (bs : List Bool) : List Int × Nat :=
  if nrz then (bs.map fun b => if b then 3 else -3, y) else pamLine pre y bs

/-! ### Training frames (R282, R283) -/

/-- One bit of the control field's CRC-16. -/
def crc16Bit (c : Nat) (b : Bool) : Nat :=
  let x := c * 2 % 65536
  if (decide (32768 ≤ c)) != b then x ^^^ 0x1021 else x

/-- The CRC-16 over bits [47:16] of a control field (R283). -/
def ctlCrc (v : Nat) : Nat := ((List.range 32).reverse).foldl (fun c i => crc16Bit c (bit v (16 + i))) 0xFFFF

/-- A control field with its CRC in place. -/
def ctlSeal (v : Nat) : Nat := v / 65536 * 65536 + ctlCrc v

/-- Field [hi:lo] of a control field. -/
def cbits (v hi lo : Nat) : Nat := v / 2 ^ lo % 2 ^ (hi - lo + 1)

/-- Whether a receiver takes a control field: its CRC holds and no field has a reserved value (R283). -/
def ctlGood (v : Nat) : Bool :=
  cbits v 15 0 = ctlCrc v && cbits v 47 46 != 3 && cbits v 45 44 != 3 && cbits v 43 42 != 3 && cbits v 37 36 != 3 && cbits v 35 34 != 3 &&
    cbits v 33 32 != 3 && cbits v 22 16 = 0

/-- `n` bits of PRBS13, x^13 + x^12 + x^2 + x + 1, from a state (R282). -/
def prbs13 : Nat → Nat → List Bool
  | 0, _ => []
  | n + 1, st =>
    let b := (bit st 12 != bit st 11) != (bit st 1 != bit st 0)
    b :: prbs13 n (st * 2 % 8192 + b.toNat)

/-- The 4,096 symbols of a training frame on lane `k` (R282): marker, control field, and pattern. Bit 31 of the field says PAM4 (R283);
training frames are never precoded. -/
def trainLevels (field k : Nat) : List Int :=
  let pam := bit field 31
  List.replicate 16 3 ++ List.replicate 16 (-3) ++
    (((List.range 48).reverse).flatMap fun i => List.replicate 4 (if bit field i then 3 else -3)) ++
    (lineOf (!pam) false 0 (prbs13 (if pam then 2 * 3872 else 3872) (1 + k))).1

/-- What a receiver reads from a frame's first 224 symbols: whether the lane is inverted, and the control field; none without a marker. -/
def readFrame (sym : List Int) : Option (Bool × Nat) :=
  let mark (a : Int) : Bool := sym.take 32 = List.replicate 16 a ++ List.replicate 16 (-a)
  let field (a : Int) : Nat :=
    (List.range 48).foldl (fun v i => 2 * v + (decide (0 < a * ((sym.drop (32 + 4 * i)).take 4).sum)).toNat) 0
  if sym.length < 224 then none
  else if mark 3 then some (false, field 1)
  else if mark (-3) then some (true, field (-1))
  else none

/-! ### Reception of a codeword (R280–R282, R286) -/

/-- The level index a received level stands for. -/
def levelIndex (v : Int) : Nat := ((v + 3) / 2).toNat % 4

/-- The bit pair of a level index. -/
def pamBits (x : Nat) : List Bool :=
  match x with
  | 0 => [false, false]
  | 1 => [false, true]
  | 2 => [true, true]
  | _ => [true, false]

/-- The bits of PAM4 levels received after index `y`, and the last index: a precoded lane's receiver adds neighbours (R281). -/
def unpam (pre : Bool) : Nat → List Int → List Bool × Nat
  | y, [] => ([], y)
  | y, v :: t =>
    let z := levelIndex v
    let r := unpam pre z t
    (pamBits (if pre then (z + y) % 4 else z) ++ r.1, r.2)

/-- The bits of levels on a lane, and the last index received. -/
def unline (nrz pre : Bool) (y : Nat) (lv : List Int) : List Bool × Nat :=
  if nrz then (lv.map fun v => decide (0 < v), y) else unpam pre y lv

/-- The 10-bit symbols of bits; the first number bounds them. -/
def symbols : Nat → List Bool → List Nat
  | 0, _ => []
  | n + 1, bs => (bs.take 10).foldl (fun v b => 2 * v + b.toNat) 0 :: symbols n (bs.drop 10)

/-- The inverse of an element of GF(2^10): its power 1,022. -/
def gfInv (a : Nat) : Nat :=
  ((List.range 9).foldl (fun (p : Nat × Nat) _ => let q := gfMul p.1 p.1; (q, gfMul p.2 q)) (a, 1)).2

/-- A polynomial, lowest coefficient first, at a point. -/
def gfEval (p : List Nat) (x : Nat) : Nat := p.foldr (fun c acc => c ^^^ gfMul acc x) 0

/-- The sum of two polynomials. -/
def gfAdd : List Nat → List Nat → List Nat
  | [], q => q
  | p, [] => p
  | a :: p, b :: q => (a ^^^ b) :: gfAdd p q

/-- The syndromes of 544 symbols: their values at α^0 to α^29. -/
def rsSyndromes (cw : List Nat) : List Nat := (List.range 30).map fun j => gfEval cw.reverse (gfPow j)

/-- The error locator by Berlekamp and Massey, and its length: the locator, the one before its last lengthening with its discrepancy, and the
steps since. -/
structure Locator where
  c : List Nat := [1]
  b : List Nat := [1]
  d : Nat := 1
  m : Nat := 1
  len : Nat := 0

/-- One step of the locator over syndrome `n`. -/
def locStep (syn : List Nat) (x : Locator) (n : Nat) : Locator :=
  let d := (List.range (x.len + 1)).foldl (fun a i => a ^^^ gfMul (x.c.getD i 0) (syn.getD (n - i) 0)) 0
  if d = 0 then { x with m := x.m + 1 }
  else
    let f := gfMul d (gfInv x.d)
    let c := gfAdd x.c (List.replicate x.m 0 ++ x.b.map (gfMul f))
    if 2 * x.len ≤ n then { c := c, b := x.c, d := d, m := 1, len := n + 1 - x.len } else { x with c := c, m := x.m + 1 }

/-- The first `n` coefficients of a product. -/
def gfProd (n : Nat) (p q : List Nat) : List Nat :=
  (List.range n).map fun k => (List.range (k + 1)).foldl (fun a i => a ^^^ gfMul (p.getD i 0) (q.getD (k - i) 0)) 0

/-- The derivative of a polynomial. -/
def gfDeriv (p : List Nat) : List Nat := ((p.drop 1).zipIdx).map fun e => if e.2 % 2 = 0 then e.1 else 0

/-- The error in the coefficient of x^i, where the locator has its root there (Forney). -/
def errorAt (loc omega : List Nat) (i : Nat) : Nat :=
  let u := gfPow ((1023 - i) % 1023)
  if gfEval loc u = 0 then gfMul (gfPow i) (gfMul (gfEval omega u) (gfInv (gfEval (gfDeriv loc) u))) else 0

/-- The codeword that differs from 544 received symbols in at most 15, and in how many (R286); none where there is none. -/
def rsDecode (cw : List Nat) : Option (List Nat × Nat) :=
  let syn := rsSyndromes cw
  if cw.length ≠ 544 then none
  else if syn.all (· = 0) then some (cw, 0)
  else
    let x := (List.range 30).foldl (locStep syn) {}
    let errs := (List.range 544).map fun p => errorAt x.c (gfProd 30 syn x.c) (543 - p)
    let fixed := List.zipWith (· ^^^ ·) cw errs
    let n := (errs.filter (· != 0)).length
    if n ≤ 15 ∧ (rsSyndromes fixed).all (· = 0) then some (fixed, n) else none

/-- A codeword as its receiver decodes it (R286): CSN, the 160 words as scrambled on the line, the number of corrected symbols, and the LINK
field. -/
structure RxCw where
  csn : Nat
  ws : List Word
  corr : Nat
  field : Nat := 128
  deriving DecidableEq, Repr

/-- The content of 514 message symbols. -/
def openCw (msg : List Nat) (corr : Nat) : RxCw :=
  let v := (msg.take 514).foldl (fun a x => a * 1024 + x) 0
  ⟨v / 2 ^ 5128, (List.range 160).map fun i => wd (v / 2 ^ (32 * (159 - i))), corr, v / 2 ^ 5120 % 256⟩

/-- The lane that stands at a receive position (R282). -/
def laneAtPos (x : Link) (pos : Nat) : Nat := tget x.order pos pos

/-- Levels that come in at a receive position, decoded, with the last index kept for the lane's precoding. -/
def receive (x : Link) (pos : Nat) (lv : List Int) : Option RxCw × Link :=
  let k := laneAtPos x pos
  let n := tget x.lanes k {}
  let r := unline x.fbrx (bit x.pcrx k) n.ry (if bit x.inv pos then lv.map (-·) else lv)
  ((rsDecode (symbols (r.1.length / 10) r.1)).map fun c => openCw c.1 c.2, { x with lanes := tset x.lanes k { n with ry := r.2 } {} })

/-! ### Link messages (R291) -/

/-- The six LINK fields of a link message (R291). -/
def linkFields (type body : Nat) : List Nat :=
  let v := type % 16 * 2 ^ 38 + body % 2 ^ 38
  (List.range 6).map fun i => (if i = 0 then 128 else 0) + v / 2 ^ (7 * (5 - i)) % 128

/-- The next LINK field of a lane: where nothing waits a no-op begins, or CLKLOST while the forwarded clock is lost (R295: "in every message",
read as every one that would be a no-op, since LTRN must pass too: DEDUCED, log entry 126). -/
def nextField (lost : Bool) : List Nat → Nat × List Nat
  | [] =>
    let l := linkFields (if lost then 7 else 0) 0
    (l.headD 0, l.drop 1)
  | f :: t => (f, t)

/-! ### Codewords (R287, R292) -/

/-- The next active lane after lane `a`, in ascending order. -/
def laneAfter (m a : Nat) : Nat :=
  let l := lanesOf m
  ((l.find? fun k => decide (a < k)).getD (l.headD 0))

/-- A transport message of R289 and R310: 4 bits of type and 44 of fields. -/
def msgWord (type body : Nat) : Nat := type * 2 ^ 44 + body % 2 ^ 44

/-- The 48-bit seconds, nanoseconds and fraction of a time as one 96-bit row: the three parts of R299. -/
def timePart (t part : Nat) : Nat :=
  let sec := t / sec16 % 2 ^ 48
  let ns := t % sec16 / 65536
  match part with
  | 0 => sec / 65536
  | 1 => sec % 65536 * 65536 + ns / 16384
  | _ => ns % 16384 * 262144 + t % 65536

/-- The three TIME messages of a time (R289, R299): DIR 0 a departure, 1 an arrival. -/
def timeMsgs (dir ref t : Nat) : List Nat :=
  [0, 1, 2].map fun p => msgWord 2 (p * 2 ^ 42 + dir * 2 ^ 41 + ref * 2 ^ 37 + timePart t p)

/-- Queue the TIME messages of a time. -/
def queueTime (s : State) (l dir ref t : Nat) : State :=
  let ms := timeMsgs dir ref t
  let s1 := setLink s l { link s l with msgs := (link s l).msgs ++ ms }
  ms.foldl (fun s m => emit s (.transport l 2 (m % 2 ^ 44))) s1

/-- A lane's record. -/
def laneAt (x : Link) (k : Nat) : Lane := tget x.lanes k {}

/-- A time in 2^-16 ns less a lane's measured skew (R299). -/
def lessSkew (t : Nat) (n : Lane) : Nat := ((t : Int) - n.skew).toNat

/-- A codeword leaves on a lane: its levels on the line go out, and the lane keeps its LINK fields and precoder. -/
def emitCw (s : State) (l lane csn : Nat) (ws : List Word) : State :=
  let x := link s l
  let n := laneAt x lane
  let q := nextField x.lost n.lq
  let r := lineOf x.fbtx (bit x.pctx lane) n.y (cwBits csn q.1 ws)
  emit (setLink s l { x with lanes := tset x.lanes lane { n with lq := q.2, y := r.2 } {} }) (.codeword l lane csn r.1)

/-- Deal one codeword to the next active lane and keep it for replay; a reference codeword is timestamped (R299). -/
def sendCw (s : State) (l : Nat) (ws : List Word) : State :=
  let x := link s l
  let lane := laneAfter x.txact x.nextLane
  let s1 := emitCw (setLink s l { x with txn := (x.txn + 1) % 4096, nextLane := lane, replay := x.replay ++ [⟨x.txn, lane, ws⟩] })
    l lane x.txn ws
  if x.txn % 256 = 0 then
    let t := lessSkew (now16 s) (laneAt x lane)
    queueTime (setLink s1 l { link s1 l with t1s := tset (link s1 l).t1s (x.txn / 256) t 0 }) l 0 (x.txn / 256) t
  else s1

/-- Raise an event of a trunk port's page; the twin link has none. -/
def raiseL (s : State) (l ev : Nat) : State := if l < 2 then raise s (pTKE + l) ev else s

/-- Count in a trunk port's register. -/
def bumpL (s : State) (l : Nat) (f : Nat → Fld) : State := if l < 2 then bumpMod s (f l) else s
def bumpSatL (s : State) (l : Nat) (f : Nat → Fld) : State := if l < 2 then bumpSat s (f l) else s

/-- Send kept codewords again on the lanes that come next; a transmitter that has stopped codewords sends none (R295). -/
def resendOn (s : State) (l : Nat) (cs : List SentCw) : State :=
  if (link s l).stalled then s
  else cs.foldl (fun s c =>
    let x := link s l
    let lane := laneAfter x.txact x.nextLane
    let x1 := { x with nextLane := lane, replay := x.replay.map fun r => if r.csn = c.csn then { r with lane := lane } else r
                       t1s := if c.csn % 256 = 0 then tset x.t1s (c.csn / 256) 0 0 else x.t1s }
    emitCw (bumpL (setLink s l x1) l TK.NREPL_N) l lane c.csn c.ws) s

/-- Send NAKed or LDROP-named codewords again, in the order given, from the lowest lane of the next codeword period on (R292). -/
def resendCws (s : State) (l : Nat) (cs : List SentCw) : State :=
  if cs = [] then s else resendOn (setLink s l { link s l with nextLane := 3 }) l cs

/-- At the replay limit an unacknowledged codeword goes again in place of a new one, oldest first (R292). -/
def resendAtLimit (s : State) (l : Nat) : State :=
  let x := link s l
  resendOn (setLink s l { x with lim := x.lim + 1 }) l ((x.replay.drop (x.lim % x.replay.length)).take 1)

/-- Whether the replay limit lets a new codeword go: at most 1,023 ahead of the oldest unacknowledged one. -/
def mayDeal (x : Link) : Bool :=
  match x.replay with
  | [] => true
  | c :: _ => decide ((x.txn + 4096 - c.csn) % 4096 ≤ 1023)

/-- Deal waiting codewords while the replay limit lets them go. -/
def dealHeld : Nat → State → Nat → State
  | 0, s, _ => s
  | f + 1, s, l =>
    let x := link s l
    match x.held with
    | [] => s
    | w :: t =>
      if x.txact = 0 ∨ x.stalled then s
      else if mayDeal x then dealHeld f (sendCw (setLink s l { x with held := t }) l w) l
      else resendAtLimit s l

/-- Split whole codewords off a word list. -/
def chunks : Nat → List Word → List (List Word) × List Word
  | 0, ws => ([], ws)
  | f + 1, ws =>
    if ws.length < 160 then ([], ws)
    else
      let r := chunks f (ws.drop 160)
      (ws.take 160 :: r.1, r.2)

/-- Send what waits in a link's stream. -/
def flushLink (s : State) (l : Nat) : State :=
  if linkRuns s l then
    let x := fillStream (link s l)
    let r := chunks (x.txBuf.length / 160) x.txBuf
    let s1 := setLink s l { x with txBuf := r.2, held := x.held ++ r.1 }
    dealHeld (link s1 l).held.length s1 l
  else s

/-- Send a transport message on a running link. -/
def sendMsg (s : State) (l type body : Nat) : State :=
  if linkRuns s l then
    let s1 := emit s (.transport l type (body % 2 ^ 44))
    flushLink (setLink s1 l { link s1 l with msgs := (link s1 l).msgs ++ [msgWord type body] }) l
  else s

/-- Send a transport message on a running link ahead of those that wait (R340). -/
def sendFirst (s : State) (l type body : Nat) : State :=
  if linkRuns s l then
    let s1 := emit s (.transport l type (body % 2 ^ 44))
    flushLink (setLink s1 l { link s1 l with msgs := msgWord type body :: (link s1 l).msgs }) l
  else s

/-- Send a transport message on both trunk ports. -/
def sendBoth (s : State) (type body : Nat) : State := sendMsg (sendMsg s 0 type body) 1 type body

/-- Send a link message of R291 on a running link: the same fields on every active lane. -/
def sendLinkMsg (s : State) (l type body : Nat) : State :=
  if linkRuns s l then
    let x := link s l
    let add (t : List (Nat × Lane)) (k : Nat) : List (Nat × Lane) :=
      tset t k { tget t k {} with lq := (tget t k {}).lq ++ linkFields type body } {}
    emit (setLink s l { x with lanes := (lanesOf x.txact).foldl add x.lanes }) (.link l type body)
  else s

/-! ### Training frames sent (R283, R294, R297) -/

/-- The control field this end sends on a lane; `cd` is the countdown, which fixes PCON (R285 step 6). -/
def ownField (x : Link) (pam : Bool) (cd : Option Nat) (k : Nat) : Nat :=
  let n := laneAt x k
  ctlSeal (n.req * 2 ^ 41 + (bit x.pcrx k).toNat * 2 ^ 40 + x.fclk.toNat * 2 ^ 39 + x.rrdyOwn.toNat * 2 ^ 38 + n.stat * 2 ^ 32 +
    pam.toNat * 2 ^ 31 + (match cd with
      | none => 0
      | some v => 2 ^ 30 + v * 2 ^ 27 + (bit x.pctx k).toNat * 2 ^ 23) + k * 2 ^ 24)

/-- The control field of a lone retrain's frames: only LANE and PAM (R294). -/
def loneField (x : Link) (k : Nat) : Nat := ctlSeal ((!x.fbtx).toNat * 2 ^ 31 + k * 2 ^ 24)

/-- Send a training frame with a control field on a lane. -/
def sendTrain (s : State) (l k field : Nat) : State := emit s (.train l k (trainLevels field k))

/-- Send training frames on the lanes of a mask. -/
def trainLanes (s : State) (l m : Nat) (field : Nat → Nat) : State := (lanesOf m).foldl (fun s k => sendTrain s l k (field k)) s

/-- Whether a transmitter in bring-up sends PAM4 patterns (R285 step 4). -/
def Link.pam (x : Link) : Bool := x.fcokFar && !x.fbtx

/-- The 8 frames of the countdown on the lanes of a mask (R285 step 6). -/
def countdown (s : State) (l m : Nat) : State :=
  ((List.range 8).reverse).foldl (fun s v => trainLanes s l m (ownField (link s l) (link s l).pam (some v))) s

/-- A frame is due in quiet idle: the idle lanes send training frames (R297). -/
def wake (s : State) (l : Nat) : State :=
  let x := link s l
  if x.quiet ∧ !x.exiting then
    trainLanes (setLink s l { x with exiting := true }) l (x.quietPrev &&& (15 - x.txact)) (loneField x)
  else s

/-! ### Frames and credit (R288, R290, R317) -/

/-- Credit units of a frame of `n` words. -/
def unitsOf (n : Nat) : Nat := (n + 63) / 64

/-- Whether a link may start a frame of `n` words: its far CAPS has come, the length is allowed, and on a trunk port the credit covers
it. -/
def mayStart (s : State) (l n : Nat) : Bool :=
  let x := link s l
  linkRuns s l && decide (n ≤ negMax s l) && (l = 2 || decide ((x.cred + 65536 - (x.used + unitsOf n) % 65536) % 65536 < 32768))

/-- Whether a frame may leave on a port that has just joined two parts of a domain (R306): a table or stop frame waits until the far part's
authority has been heard, so that the holder of the older record has resigned before any crosses. -/
def mayCross (s : State) (l fk : Nat) (ws : List Word) : Bool :=
  fk != 1 || decide (2 ≤ l) || wbits (ws.getD 0 0#32) 27 20 != 255 || wbits (ws.getD 1 0#32) 31 16 = 3 || (link s l).met

/-- Start a frame: it takes its credit and enters the stream; quiet idle ends (R297). -/
def startFrame (s : State) (l fk : Nat) (ws : List Word) : State :=
  let x := link s l
  wake (flushLink (setLink s l { x with used := (x.used + unitsOf ws.length) % 65536, frames := x.frames ++ [(fk, ws)] }) l) l

/-- Start a frame of this hub's own (R319). -/
def startOwn (s : State) (l fk : Nat) (ws : List Word) : State :=
  startFrame (setLink s l { link s l with ownT := some (nowNs s) }) l fk ws

/-- Send this hub's own management (1) or twin (2) frame, or keep it until credit comes; a link that does not run sends none. -/
def sendFrame (s : State) (l fk : Nat) (ws : List Word) : State :=
  if !linkRuns s l then s
  else if (link s l).own.isEmpty ∧ mayStart s l ws.length ∧ mayCross s l fk ws then startOwn (emit s (.mgmt l ws)) l fk ws
  else setLink s l { link s l with own := (link s l).own ++ [(fk, ws)] }

/-- Send own frames that waited for credit. -/
def drainOwn : Nat → State → Nat → State
  | 0, s, _ => s
  | f + 1, s, l =>
    match (link s l).own with
    | [] => s
    | w :: t =>
      if mayStart s l w.2.length ∧ mayCross s l w.1 w.2 then
        drainOwn f (startOwn (emit (setLink s l { link s l with own := t }) (.mgmt l w.2)) l w.1 w.2) l
      else s

end Sys2Proof.Machine
end

