-- ==== Sys2Proof/Machine/Tick.lean ====
section
/-! DEFINITION. One CCLK cycle with no command waiting: domain time advances by the increment (R257), and the registers that
follow a sensor take free values. -/

namespace Sys2Proof.Machine

/-- The 36-bit increment of domain time per CCLK cycle, 2^-32 ns units (R257, R260): INCHI nanoseconds and INCLO fraction. -/
def increment36 (s : State) : Nat := get s TSU.INCHI_INT * 2 ^ 32 + get s TSU.INCLO_FRAC

/-- Advance a time by `d` in 2^-32 ns: the fraction carries into nanoseconds, and nanoseconds into seconds. -/
def advance (t : DTime) (d : Nat) : DTime :=
  let f := t.frac + d
  let n := t.ns + f / 2 ^ 32
  ⟨(t.sec + n / 1000000000) % 2 ^ 48, n % 1000000000, f % 2 ^ 32⟩

/-! ### What the hub measures by itself -/

/-- The current a quad's own drivers deliver, 10 µA units: 0 while they do not drive and when QM = 0 (R428). -/
def ownCurrent (s : State) (n q : Nat) : Nat :=
  if get s (BNK.QCFG_QM n q) ≠ 0 ∧ flag s (BNK.QSTAT_ON n q) then get s (BNK.QMEAS_IMEAS n q) else 0

/-- The current, 10 µA units, at which any quad is limited and held: 90 mA (R80, R84). -/
abbrev quadLimit : Nat := 9000

/-- What the computed registers of a bank's page read (R428). -/
def viewBNK (s : State) (n off : Nat) : Option Nat :=
  if 0x70 ≤ off ∧ off < 0x80 ∧ off % 4 = 0 then
    let q := (off - 0x70) / 4
    some (pack [(BNK.QMEAS_VSNS n q, if get s (BNK.QCFG_QM n q) = 0 then 0 else get s (BNK.QMEAS_VSNS n q)),
      (BNK.QMEAS_IMEAS n q, ownCurrent s n q)])
  else none

/-- The registers that follow a sensor or a count which no command carries, with the `i`-th free value applied to each: the quads'
voltages and currents (R428), EXMEAS, the levels of SEAL_N and of an open LID_N, whose opening is a command of its own (R172), the pass-through current, whether a port is at its 2.0 A limit
(R389), the processors' loads, the error counts of ETH and of a lane's test
pattern, and at a whole second MPHE, within 0.5 ns while the sample PLL is locked (R10). -/
def measures (s : State) (second : Bool) (v : Nat → Nat) : List (Fld × Nat) :=
  ((List.range 48).filter fun n => pstate s (bankPage n) != stOFF).flatMap (fun n => (List.range 4).flatMap fun q =>
    [(BNK.QMEAS_VSNS n q, if get s (BNK.QCFG_QM n q) = 0 then 0 else v (8 * n + 2 * q)),
     (BNK.QMEAS_IMEAS n q, if get s (BNK.QCFG_QM n q) ≠ 0 ∧ flag s (BNK.QSTAT_ON n q) then v (8 * n + 2 * q + 1) % (quadLimit + 1) else 0)]) ++
  (if pstate s pEXC = stOFF then [] else [(EXC.EXMEAS_PWR, v 384)]) ++
  (List.range 4).map (fun p => (MGT.PLOAD_PCT p, v (385 + p) % 101)) ++
  (if pstate s pMTR = stOFF then [] else
    [(MTR.MSTAT_SEALN, v 396 % 2), (MTR.MSTAT_LIDO, if flag s MTR.MSTAT_LIDO then v 397 % 2 else 0)]) ++
  (PWR.PTST_I, v 389) :: [0, 1].map (fun p => (PWR.PORTST_ILIM p, if flag s (PWR.PORTST_PRES p) then v (394 + p) % 2 else 0)) ++
  (if pstate s pETH = stOFF then [] else [(ETH.RXERR_N, get s ETH.RXERR_N + v 390)]) ++
  ([0, 1].filter fun p => pstate s (pTKE + p) = stTEST).map (fun p => (TK.TERR_N p, get s (TK.TERR_N p) + v (391 + p))) ++
  if second then [(CLK.MPHE_E, if flag s CLK.PLLST_SMP then ofSigned 32 ((v 393 % 257 : Nat) - 128 : Int) else v 393)] else []

/-- Whether receiver adaptation runs on a lane (R296): it is qualified and permitted, carries codewords, and its direction has not been in
quiet idle for 4 µs. -/
def adapts (s : State) (l k : Nat) : Bool :=
  let x := link s l
  linkRuns s l && bit x.qual k && (l = 2 || bit (get s (TK.ADAPTQ_SWEN l)) k) && bit x.rxact k && !x.rxQuiet &&
    (match x.rxWake with
      | none => true
      | some t => decide (t + 4000 ≤ nowNs s))

/-- A link whose adapting lanes have new equaliser settings; outside R296 the settings are frozen. -/
def adaptLink (s : State) (v : Nat → Nat) (l : Nat) : State :=
  let ks := (List.range 4).filter (adapts s l)
  if ks.isEmpty then s
  else
    let x := link s l
    setLink s l { x with lanes := ks.foldl (fun t k => tset t k { tget t k {} with eq := v (398 + 4 * l + k) } {}) x.lanes }

/-! ### The heartbeat detector (R339) -/

/-- Whether bank `n` is in the heartbeat set (TWL.HBMLO, HBMHI). -/
def heartbeat (s : State) (n : Nat) : Bool :=
  if n < 32 then bit (get s TWL.HBMLO_BANKS) n else bit (get s TWL.HBMHI_BANKS) (n - 32)

/-- The quads of the heartbeat set: (bank, quad). -/
def heartQuads (s : State) : List (Nat × Nat) :=
  (List.range 48).flatMap fun n => if heartbeat s n then
    ((List.range 4).filter fun q => get s (BNK.QCFG_QM n q) != 0).map fun q => (n, q) else []

/-- Whether the excitation sensed at a quad is present: outside its bank's blanking windows, at least 50 % of LEVEL for a voltage quad and
10 mV for a current quad. -/
def quadPresent (s : State) (n q : Nat) : Bool :=
  !(bank s n).blanking && (match get s (BNK.QCFG_QM n q) with
    | 1 => decide (5 * get s (BNK.QCFG_LEVEL n q) ≤ get s (BNK.QMEAS_VSNS n q))
    | 2 => decide (10 ≤ get s (BNK.QMEAS_VSNS n q))
    | _ => false)

/-- Whether a quad of the heartbeat set is present now. -/
def anyPresent (s : State) : Bool := (heartQuads s).any fun e => quadPresent s e.1 e.2

/-- One cycle of the detector: the time since a quad was last present, and the count of absence, which a held PAUSE suspends (R340). A FAIL
counts for the absence it announces; once that absence has ended it is spent (R342; DEDUCED, log entry 128). -/
def sense (s : State) : State :=
  let p := anyPresent s
  let back : Bool := p && decide (get s TWL.HBGAP_US * 24576 < s.twl.gap * 100)
  { s with twl := { s.twl with gap := if p then 0 else s.twl.gap + 1
                               absent := if p || flag s TWL.TROLE_PAUSE then 0 else s.twl.absent + 1
                               failRx := if back then none else s.twl.failRx } }

/-- Free values an idle step uses. -/
abbrev measureDraws : Nat := 410

/-- One CCLK cycle (R257): the time unit, while PD_TIM is on, adds the increment; the measured registers and the equalisers that adapt
take new free values; the heartbeat detector looks; the model counts the cycle. -/
def tick (s : State) : State :=
  let t := if domainOn s 16 then advance s.time (increment36 s) else s.time
  let v (i : Nat) : Nat := (Config.freeWord (s.fresh + i)).toNat
  let s1 := [0, 1, 2].foldl (fun s l => adaptLink s v l) s
  sense { puts s1 (measures s (t.sec != s.time.sec) v) with cyc := s.cyc + 1, time := t, fresh := s.fresh + measureDraws }

end Sys2Proof.Machine
end

