-- ==== Sys2Proof/Machine/Bank.lean ====
section
/-! DEFINITION. Input banks and excitation: routing changes (R77–R79), quads (R80–R85), open-wire and overload detection
(R86–R89), bank states (R90), page BNK (R91, R92), page EXC (R93), and the spare slice (R126–R131). Bank 48 is OBK. -/

namespace Sys2Proof.Machine

/-! ### Excitation drive and the heartbeat (R85, R93, R340) -/

/-- Whether any quad of bank `n` drives. -/
def bankDrives (s : State) (n : Nat) : Bool := (List.range 4).any fun q => flag s (BNK.QSTAT_ON n q)

/-- Whether any quad of the hub drives. -/
def anyDrives (s : State) : Bool := (List.range 48).any (bankDrives s)

/-- Whether a heartbeat quad drives. -/
def heartbeatDrives (s : State) : Bool := (List.range 48).any fun n => heartbeat s n && bankDrives s n

/-- Whether the twin link counts as silent (R328, R330). -/
def twinSilent (s : State) : Bool := s.twl.silent || s.twl.pairFail

/-- EXC follows the quads (R93), and on an active unit the twin link carries PAUSE, ahead of every other message, when the last heartbeat
quad stops, and RESUME when one drives again (R340). -/
def refreshDrive (s : State) : State :=
  let any := anyDrives s
  let s1 :=
    if pstate s pEXC = stIDLE ∧ any then setPState s pEXC stRUN
    else if pstate s pEXC = stRUN ∧ !any then setPState s pEXC stIDLE
    else s
  let hb := heartbeatDrives s1
  if hb = s1.twl.driving then s1
  else
    let s2 := { s1 with twl := { s1.twl with driving := hb } }
    if (role s = rACTIVE ∨ role s = rTAKEOVER) ∧ !twinSilent s then (if hb then sendMsg s2 2 5 0 else sendFirst s2 2 4 0) else s2

/-- Whether quad `q` of bank `n` may drive: the bank samples, QM is not 0, EXC supplies, and the role drives (R85, R90, R93). -/
def mayDrive (s : State) (n q : Nat) : Bool :=
  decide (n < 48) && producing s n && get s (BNK.QCFG_QM n q) != 0 && (pstate s pEXC = stIDLE || pstate s pEXC = stRUN) &&
    roleDrives s

/-- Bring QSTAT.ON of a bank to what may drive. -/
def driveBank (s : State) (n : Nat) : State :=
  if n < 48 then refreshDrive (forEach (List.range 4) (fun s q => putB s (BNK.QSTAT_ON n q) (mayDrive s n q)) s) else s

/-- Bring QSTAT.ON of every bank to what may drive. -/
def driveAll (s : State) : State :=
  refreshDrive (forEach (List.range 48) (fun s n => forEach (List.range 4) (fun s q => putB s (BNK.QSTAT_ON n q) (mayDrive s n q)) s) s)

/-! ### The budget (R20, R80, R93) -/

/-- A quad's budget load in 10^-7 W: LEVEL × max(ILOAD, measured current) for a voltage quad, LEVEL × 5.0 V for a current quad. -/
def quadLoad (s : State) (n q : Nat) : Nat :=
  let lv := get s (BNK.QCFG_LEVEL n q)
  match get s (BNK.QCFG_QM n q) with
  | 1 => lv * max (get s (BNK.QCFG_ILOAD n q) * 100) (ownCurrent s n q)
  | 2 => lv * 500
  | _ => 0

/-- An IEPE channel's budget load in 10^-7 W: its current × 12 V. -/
def iepeLoad (s : State) (n k : Nat) : Nat :=
  if get s (BNK.CHCFG_MODE n k) = 5 then 240000 + 60000 * get s (BNK.CHCFG_IEPEI n k) else 0

/-- Whether an input in MODE `m` is connected: its bank is not OFF and no routing of the input runs (R77). -/
def inMode (s : State) (m n k : Nat) : Bool :=
  bstate s n != stOFF && get s (BNK.CHCFG_MODE n k) = m && (match (bank s n).route with
    | some r => !bit r.mask k
    | none => true)

/-- The inputs of every bank that are connected in MODE `m`. -/
def inputsIn (s : State) (m : Nat) : List Nat :=
  ((List.range 48).flatMap fun n => ((List.range 16).filter (inMode s m n)).map fun k => 16 * n + k)

/-- What a role puts on shared wiring (R327, R343): the SSI clock and output pads driven or high-impedance; the LOOP shunts (MODE 4) closed and
IEPE sources (MODE 5) on, of the channels listed, or open and off. Without drive no output pad is high. -/
def shareDrive (s : State) : State :=
  if roleDrives s then emit s (.shared true (inputsIn s 4) (inputsIn s 5))
  else emit { s with axs := { s.axs with trgOut := 0 } } (.shared false [] [])

/-- The whole budget load in 10^-7 W. -/
def loadE7 (s : State) : Nat :=
  ((List.range 48).map fun n => ((List.range 4).map (quadLoad s n)).sum + ((List.range 16).map (iepeLoad s n)).sum).sum

/-- EXPOW.LOAD in 10 mW units; a part of a unit counts as one. -/
def expowLoad (s : State) : Nat := (loadE7 s + 99999) / 100000

/-- What the computed registers of page EXC read. -/
def viewEXC (s : State) (off : Nat) : Option Nat := if off = 0x40 then some (expowLoad s) else none

/-! ### Routing (R77) -/

/-- FES runs (R352); a commit that needs a routing sequence is rejected with BUSY otherwise. -/
def fesRuns (s : State) : Bool := get s (MGT.PRST_ST 3) = 2

/-- Start a routing sequence for the inputs in the mask (step 1 and 2): BUSY, the bits ignored, the old connections opened; the
channels carry SUP from now. -/
def startRouting (s : State) (n mask : Nat) : State :=
  if mask = 0 then s
  else
    let s1 := setBank s n { bank s n with route := some ⟨mask, 1⟩ }
    noteCond (forEach (bitsOf mask 16) (fun s k => setSETST s (16 * n + k) true) (setBusy s1 (bankPage n) true)) n

/-- The inputs whose MODE is not OFF. -/
def activeMask (s : State) (n : Nat) : Nat := maskOf ((List.range 16).filter fun k => get s (BNK.CHCFG_MODE n k) != 0)

/-- Clear a quad's open state (R79, R87). -/
def clearQuadOpen (s : State) (n q : Nat) : State :=
  let s1 := putB s (BNK.QSTAT_OPEN n q) false
  forEach [4 * q, 4 * q + 1, 4 * q + 2, 4 * q + 3] (fun s k =>
    let s2 := setChan s (16 * n + k) { chan s (16 * n + k) with opnFrom := none }
    if bit (bank s n).legs k then s2 else putBit s2 (BNK.CHST_OPN n) k false) s1

/-- Clear the signal-leg open state of the inputs in a mask (R79). OPN on OBK arises only under R103, and stays. -/
def clearLegs (s : State) (n mask : Nat) : State :=
  if n = 48 then s
  else forEach (bitsOf mask 16) (fun s k =>
    let b := bank s n
    let s1 := setBank s n { b with legs := maskOf ((bitsOf b.legs 16).filter (· != k)), judge := b.judge ||| 2 ^ k }
    if flag s (BNK.QSTAT_OPEN n (k / 4)) then s1 else putBit s1 (BNK.CHST_OPN n) k false) s

/-- ROUTING_DISCHARGE (R77 step 3): the affected inputs are shorted to bank common. -/
def execRoutingDischarge (n : Nat) (s : State) : Host.Outcome State Fault Refusal :=
  if 49 ≤ n then .fault .noSuchUnit
  else match (bank s n).route with
    | some r => if r.step = 1 then .next (setBank s n { bank s n with route := some { r with step := 2 } }) else .next s
    | none => .next s

/-- MAKE_STEP (R77 step 4): the new connections are made, BUSY clears, ROUTED is raised, leg states clear (R79) and the settles
restart. Bit 14 is ROUTED on BNK pages and bit 15 on OPT (R91, R109). -/
def execMakeStep (n : Nat) (s : State) : Host.Outcome State Fault Refusal :=
  if 49 ≤ n then .fault .noSuchUnit
  else match (bank s n).route with
    | some r =>
      if r.step = 2 then
        let s1 := setBank s n { bank s n with route := none }
        let s2 := raise (setBusy s1 (bankPage n) false) (bankPage n) (if n = 48 then 15 else 14)
        .next (noteCond (restartMask (clearLegs s2 n r.mask) n r.mask) n)
      else .next s
    | none => .next s

/-! ### Blanking and polarity (R81–R83) -/

/-- LEVEL and LSNS of a quad as configured. -/
def levelWord (s : State) (n q : Nat) : Nat := get s (BNK.QCFG_LEVEL n q) + 512 * get s (BNK.QCFG_LSNS n q)

/-- The blanking window starts (R82): bits are discarded, pull-apart current flows, and held LEVEL and LSNS changes take effect
with a settle of their quads' channels (R83). -/
def blankStart (s : State) (n : Nat) : State :=
  let b := bank s n
  let lv := (bitsOf b.pendQ 4).foldl (fun t q => tset t q (levelWord s n q) 0) b.effLevel
  let s1 := noteCond (setBank s n { b with blanking := true, effLevel := lv, pendQ := 0 }) n
  forEach (bitsOf b.pendQ 4) (fun s q => restartMask s n (0xF * 2 ^ (4 * q))) s1

/-- Whether an input's signal leg is judged at a blanking window (R79, R86): it has a detector, which is the pull-apart test with
XCTL.PAEN and beside it the bias in IEPE mode, MODE is not OFF, no routing of the input runs, and a leg cleared by routing waits for
the settle to expire. -/
def legJudged (s : State) (n k : Nat) : Bool :=
  let b := bank s n
  (flag s (BNK.XCTL_PAEN n) || get s (BNK.CHCFG_MODE n k) = 5) && get s (BNK.CHCFG_MODE n k) != 0 &&
    (match b.route with
      | some r => !bit r.mask k
      | none => true) &&
    !(bit b.judge k && bit (get s (BNK.SETST_SET n)) k)

/-- Whether an input's detectors find its signal leg broken (R86): a leg that the pull-apart moves more than 1.0 mV, or an IEPE bias below
1.0 V or above 11.0 V. -/
def legBroken (s : State) (n k moved bias : Nat) : Bool :=
  (flag s (BNK.XCTL_PAEN n) && decide (1000 < moved)) ||
    (get s (BNK.CHCFG_MODE n k) = 5 && (decide (bias < 1000) || decide (11000 < bias)))

/-! ### Open wires and overload (R84, R86–R89) -/

/-- The grid mark of a slot that is interpolated from path E: no path E sample has this number. -/
abbrev gInterp : Nat := 2 ^ 64

/-- The number of the path E sample with which a slot of path E emerges (R71, R140): its own, or the last one it is interpolated from. -/
def Slot.lastSample (z : Slot) : Nat := if z.g = gInterp then z.t * 48000 / sec16 + 8 else z.g

/-- Change the words of a channel's values that its slots hold already: on path M from grid tick `m` on, on path E from sample `e` on. -/
def tagSlots (s : State) (ch m e : Nat) (f : Word → Word) : State :=
  { s with ctxs := s.ctxs.map fun x =>
      let at_ (z : Slot) : Bool := if get s (STM.CCFG_PATH x.1) = 0 then decide (m ≤ z.g) else decide (e ≤ z.lastSample)
      let tag (z : Slot) : Slot := { z with vals := z.vals.map fun v =>
        if v.1 = ch then (v.1, v.2.map fun w => { w with word := f w.word }) else v }
      let g (l : List Slot) : List Slot := l.map fun z => if at_ z then tag z else z
      (x.1, { x.2 with cur := g x.2.cur, closed := x.2.closed.map fun b => { b with slots := g b.slots } }) }

/-- The values of a channel that its slots hold already and that have not emerged take BDS, or lose it (R84, R89, R101). -/
def tagBds (s : State) (ch : Nat) (on : Bool) : State :=
  tagSlots s ch (slotInProgress s ch) (sampleInProgress s) fun w => if on then w ||| 4#32 else w &&& ~~~4#32

/-- The values of a channel that its slots hold already take OPN from tick `t` on (R86, R103). -/
def tagOpn (s : State) (ch t : Nat) : State := tagSlots s ch t ((t + 127) / 128) fun w => w ||| 32#32

/-- One input's result is latched (R86, R87): a broken leg is open; a passing test clears an open leg and restarts the settle. -/
def latchLeg (moved bias : List Nat) (n : Nat) (s : State) (k : Nat) : State :=
  if legJudged s n k then
    let b := bank s n
    let s1 := setBank s n { b with judge := maskOf ((bitsOf b.judge 16).filter (· != k)) }
    let b1 := bank s1 n
    if legBroken s n k (moved.getD k 0) (bias.getD k 1000) then
      if bit b1.legs k then s1
      else
        let s2 := tagOpn (setBank s1 n { b1 with legs := b1.legs ||| 2 ^ k }) (16 * n + k) (slotInProgress s (16 * n + k))
        raise (putBit s2 (BNK.CHST_OPN n) k true) (bankPage n) 8
    else if bit b1.legs k then
      let s2 := setBank s1 n { b1 with legs := maskOf ((bitsOf b1.legs 16).filter (· != k)) }
      let s3 := if flag s2 (BNK.QSTAT_OPEN n (k / 4)) then s2 else putBit s2 (BNK.CHST_OPN n) k false
      restartSettle s3 (16 * n + k)
    else s1
  else s

/-- BLANKING_END (R82): pull-apart is removed, its result latched, and bits count again. -/
def execBlankingEnd (n : Nat) (legs : List LegRead) (s : State) : Host.Outcome State Fault Refusal :=
  if 48 ≤ n then .fault .noSuchUnit
  else if (bank s n).blanking then
    .next (forEach (List.range 16) (latchLeg (legs.map (·.moved)) (legs.map (·.bias)) n) (noteCond (setBank s n { bank s n with blanking := false }) n))
  else .next s

/-- QOPEN (R86): the quad's monitor finds a break; its four channels carry OPN on every slot whose integration period contains
the break instant or follows it, from the earliest break found while the quad is open. -/
def execQopen (n q tick : Nat) (s : State) : Host.Outcome State Fault Refusal :=
  if 48 ≤ n ∨ 4 ≤ q then .fault .noSuchUnit
  else if producing s n ∧ get s (BNK.QCFG_QM n q) ≠ 0 then
    let s1 := raise (putB s (BNK.QSTAT_OPEN n q) true) (bankPage n) 11
    .next (forEach [4 * q, 4 * q + 1, 4 * q + 2, 4 * q + 3] (fun s k =>
      let c := chan s (16 * n + k)
      let s2 := tagOpn (setChan s (16 * n + k) { c with opnFrom := some (min tick (c.opnFrom.getD tick)) }) (16 * n + k) tick
      raise (putBit s2 (BNK.CHST_OPN n) k true) (bankPage n) 8) s1)
  else .next s

/-- The quad's monitor has stayed normal for a half-period (R87). -/
def qopenClear (s : State) (n q : Nat) : State :=
  if flag s (BNK.QSTAT_OPEN n q) then restartMask (clearQuadOpen s n q) n (0xF * 2 ^ (4 * q)) else s

/-- A channel's density leaves the band now (R88): the stretch is kept for the slots whose output period contains it. -/
def ovrStart (s : State) (ch : Nat) : State :=
  let c := chan s ch
  setChan (putBit s (BNK.CHST_OVR (bankOfCh ch)) (ch % 16) true) ch { c with ovrOn := some (c.ovrOn.getD (nowTicks s)) }

/-- A channel's density has stayed inside the band for a whole output period, which ends now (R88). The stretch ended where that period
began; stretches that no slot can contain any more, 2^24 ticks old, are dropped. -/
def ovrEnd (s : State) (ch : Nat) : State :=
  let c := chan s ch
  let t := nowTicks s
  setChan (putBit s (BNK.CHST_OVR (bankOfCh ch)) (ch % 16) false) ch
    { c with ovrOn := none
             ovrPast := (c.ovrOn.getD t, t - outTicks s (bankOfCh ch)) :: c.ovrPast.filter fun x => decide (t < x.2 + 2 ^ 24) }

/-- OVR (R88): the channel's density leaves the band. -/
def execOvr (ch : Nat) (s : State) : Host.Outcome State Fault Refusal :=
  if 784 ≤ ch then .fault .noSuchUnit
  else if producing s (bankOfCh ch) ∧ chMode s ch ≠ 0 then .next (raise (ovrStart s ch) (chPage ch) 9)
  else .next s

/-- OVR_CLEAR (R88): in band for a whole output period; the settle restarts. -/
def execOvrClear (ch : Nat) (s : State) : Host.Outcome State Fault Refusal :=
  if 784 ≤ ch then .fault .noSuchUnit
  else if bit (get s (BNK.CHST_OVR (bankOfCh ch))) (ch % 16) then .next (restartSettle (ovrEnd s ch) ch)
  else .next s

/-- BDS (R89): the bank's clamp conducts; this holds in every state while the domain is on. -/
def execBds (n : Nat) (s : State) : Host.Outcome State Fault Refusal :=
  if 48 ≤ n then .fault .noSuchUnit
  else if answers s (bankPage n) then
    let s1 := forEach (List.range 16) (fun s k => tagBds s (16 * n + k) true) s
    .next (raise (putB (setBank s1 n { bank s1 n with clamp := true }) (BNK.SETST_BDS n) true) (bankPage n) 10)
  else .next s

/-- A channel of a bank carries BDS no more, unless the clamp or its quad's limit still gives it (R84, R89). -/
def dropBds (n : Nat) (s : State) (k : Nat) : State :=
  if (bank s n).clamp || bit (bank s n).ilimTail (k / 4) then s else tagBds s (16 * n + k) false

/-- BDS_END (R89): the slots that emerge from now on carry it no more. -/
def execBdsEnd (n : Nat) (s : State) : Host.Outcome State Fault Refusal :=
  if 48 ≤ n then .fault .noSuchUnit
  else .next (forEach (List.range 16) (dropBds n) (putB (setBank s n { bank s n with clamp := false }) (BNK.SETST_BDS n) false))

/-- EXPWR is raised where the programmed total, counted with the measured currents, exceeds 24 W while EXC supplies (R84). -/
def checkPower (s : State) : State :=
  if (pstate s pEXC = stIDLE ∨ pstate s pEXC = stRUN) ∧ loadE7 s > 240000000 then raise s pEXC 8 else s

/-- QILIM (R84): the quad is held at 90 mA; its channels carry BDS from the slot in progress. -/
def execQilim (n q : Nat) (s : State) : Host.Outcome State Fault Refusal :=
  if 48 ≤ n ∨ 4 ≤ q then .fault .noSuchUnit
  else if flag s (BNK.QSTAT_ON n q) then
    let s0 := forEach (List.range 4) (fun s k => tagBds s (16 * n + 4 * q + k) true) s
    let b := bank s0 n
    let s1 := setBank s0 n { b with ilimTail := b.ilimTail ||| 2 ^ q }
    .next (checkPower (raise (putB s1 (BNK.QSTAT_ILIM n q) true) (bankPage n) 12))
  else .next s

/-- ILIM_END (R84): three output periods after the current fell below 85 mA. -/
def execIlimEnd (n q : Nat) (s : State) : Host.Outcome State Fault Refusal :=
  if 48 ≤ n ∨ 4 ≤ q then .fault .noSuchUnit
  else
    let b := bank s n
    let s1 := setBank s n { b with ilimTail := maskOf ((bitsOf b.ilimTail 4).filter (· != q)) }
    .next (checkPower (putB (forEach [4 * q, 4 * q + 1, 4 * q + 2, 4 * q + 3] (dropBds n) s1) (BNK.QSTAT_ILIM n q) false))

/-- Whether a quad's current differs by more than the `den`-th part from its value at the end of its last settle, no settle of its
channels running (R91, R345). -/
def departs (s : State) (n q den : Nat) : Bool :=
  let i := get s (BNK.QMEAS_IMEAS n q)
  flag s (BNK.QSTAT_ON n q) && (match tget (bank s n).iRef q none with
    | some r => decide (r < den * max (i - r) (r - i))
    | none => false) &&
    (List.range 4).all fun k => (chan s (16 * n + 4 * q + k)).endM.isNone && (chan s (16 * n + 4 * q + k)).mwLeft = 0

/-- QIDEV (R91): a quad's current differs by more than 1/8 from its value at the end of its last settle. -/
def execQidev (n q : Nat) (s : State) : Host.Outcome State Fault Refusal :=
  if 48 ≤ n ∨ 4 ≤ q then .fault .noSuchUnit
  else if departs s n q 8 then .next (raise (putB s (BNK.QSTAT_IDEV n q) true) (bankPage n) 13)
  else .next s

/-! ### The spare slice (R126–R131) -/

/-- The channels the rotation visits after channel `c`: the next higher one whose MODE is not OFF, or the spare's own step. -/
def nextRotCh (s : State) (n c : Nat) : Nat :=
  match (List.range 16).find? fun k => decide (c < k) && get s (BNK.CHCFG_MODE n k) != 0 with
  | some k => k
  | none => 16

/-- The first channel of a rotation round. -/
def firstRotCh (s : State) (n : Nat) : Nat :=
  match (List.range 16).find? fun k => get s (BNK.CHCFG_MODE n k) != 0 with
  | some k => k
  | none => 16

/-- Put the rotation state of a bank. -/
def setRot (s : State) (n : Nat) (r : Option Rot) : State := setBank s n { bank s n with rot := r }

/-- The L0 entry of slice `sl` of bank `n` at the gain and RF of input `c`. -/
def l0Slot (s : State) (n sl c : Nat) : Nat := l0Index (17 * n + sl) (chGain s (16 * n + c)) (chRf s (16 * n + c))

/-- The L0 entry a rotation step measures: that of the input's own slice, or of the spare at the gain of its last step (R129). -/
def stepEntry (s : State) (n c : Nat) : Nat :=
  if c = 16 then l0Index (17 * n + 16) ((bank s n).spareG / 3) ((bank s n).spareG % 3) else l0Slot s n c c

/-- A slice goes back to the L0 model (R129). -/
def forgetBg (s : State) (n sl : Nat) : State := setBank s n { bank s n with bg := maskOf ((bitsOf (bank s n).bg 17).filter (· != sl)) }

/-- The spare takes the gain and RF of input `c`: a change of its gain returns it to the L0 model (R129). -/
def spareTo (s : State) (n c : Nat) : State :=
  let g := chGain s (16 * n + c) * 3 + chRf s (16 * n + c)
  if (bank s n).spareG = g then s
  else
    let s1 := forgetBg s n 16
    setBank s1 n { bank s1 n with spareG := g }

/-- The background result of a step (R129): accepted into the calibration history, or logged with m, Z and F and not accepted. Z and F are
whole codes, Gbg is held in 2^-30 rounded to nearest, ties to even, and Obg in 2^-8 code (DESIGN CHOICE, log entry 122: R129 gives
neither scale nor rounding). -/
def background (s : State) (n c : Nat) (z f : Int) : State :=
  let m := stepEntry s n c
  let g0 := get s (MGT.CG0_G0 m)
  let data : List Int := [17 * n + c, z, f]
  if f ≤ z then logWith data s (bankPage n) Config.codeBackground.toNat srcHW
  else
    let gbg := (roundEven (0x333333 * 2 ^ 30) (f - z).toNat).toNat
    let fsr := 2 * 0x666666
    if z.natAbs * 100 ≤ fsr ∧ (gbg : Int) * 100 ≤ g0 * 101 ∧ g0 * 99 ≤ (gbg : Int) * 100 ∧ gbg < 2 ^ 32 then
      let s1 := puts s [(MGT.CBGG_GBG m, gbg), (MGT.CBGO_OBG m, ofSigned 32 (z * 256))]
      setBank s1 n { bank s1 n with bg := (bank s1 n).bg ||| 2 ^ c }
    else logWith data s (bankPage n) Config.codeBackground.toNat srcHW

/-- Restore the L0 model for every slice of a bank (R129, SUSE back to 0). -/
def restoreL0 (s : State) (n : Nat) : State :=
  let b := bank s n
  setBusy (setBank s n { b with rot := none, bg := 0 }) (bankPage n) false

/-- The rotation begins the step of input `c`, or the spare's own step (16). -/
def rotStep (s : State) (n c : Nat) : State :=
  if c = 16 then setRot s n (some { ch := 16, phase := 2 }) else setRot (spareTo s n c) n (some { ch := c, phase := 1 })

/-- What follows the end of a step: the next one; the end of a wind-down is a pause while the bank is in TEST, the spare's own step
after it, and the end of the rotation when SUSE has left 2. -/
def rotNext (s : State) (n : Nat) (r : Rot) : State :=
  if r.windDown then
    if get s (BNK.SPARE_SUSE n) = 2 then setRot s n (some { ch := 16, phase := 2, paused := bstate s n = stTEST }) else restoreL0 s n
  else rotStep s n (if r.ch = 16 then firstRotCh s n else nextRotCh s n r.ch)

/-- ROTATION_PHASE (R128, R129): a phase of the rotation ends. Phase 1 settles the spare, 2 gives Z, 3 gives F and the result, 4
settles the own slice. In the spare's own step only phases 2 and 3 run. While FES does not run, the rotation pauses (R382). -/
def execRotationPhase (n : Nat) (avg : Int) (s : State) : Host.Outcome State Fault Refusal :=
  if 49 ≤ n then .fault .noSuchUnit
  else match (bank s n).rot with
    | none => .next s
    | some r =>
      if r.paused ∨ !fesRuns s then .next s
      else if r.windDown ∧ r.phase = 4 then .next (rotNext s n r)
      else if r.phase = 1 then .next (setRot s n (some { r with phase := 2 }))
      else if r.phase = 2 then .next (setRot s n (some { r with phase := 3, z := avg }))
      else if r.phase = 3 then
        let s1 := background s n r.ch r.z avg
        if r.ch = 16 then .next (rotNext s1 n r) else .next (setRot s1 n (some { r with phase := 4 }))
      else .next (rotNext s n r)

/-- A commit that reroutes input `k` while it is in its step ends the step (R130). -/
def rotReroute (s : State) (n mask : Nat) : State :=
  match (bank s n).rot with
  | none => s
  | some r => if r.ch < 16 ∧ bit mask r.ch then rotNext s n r else s

/-- The wind-down of the step in progress (R130): phase 1 and the spare's own step end at once; phases 2–4 route the own slice back. -/
def windDown (s : State) (n : Nat) (r : Rot) : State :=
  if r.paused ∨ r.ch = 16 ∨ r.phase = 1 then rotNext s n { r with windDown := true }
  else setRot s n (some { r with windDown := true, phase := 4 })

/-- A commit changed SPARE from SUSE `o` on channel `oc` to `v` on `c` while the bank samples (R126, R127, R130, R131): the inputs
whose routing it runs, and the state after it. A rotation that SUSE = 2 starts while the bank is in TEST starts as R131 has it, with the
spare's own step, and is not paused: R130 pauses a rotation at TESTIN only (DESIGN CHOICE, log entry 108). -/
def spareChange (s : State) (n o oc v c : Nat) : Nat × State :=
  if v = 1 then ((if o = 1 then 2 ^ oc else 0) ||| 2 ^ c, s)
  else if o = 1 then (2 ^ oc, s)
  else if v = 2 ∧ o = 0 then (0, setRot s n (some {}))
  else if v = 0 ∧ o = 2 then
    match (bank s n).rot with
    | some r => (0, windDown (setBusy s (bankPage n) true) n r)
    | none => (0, restoreL0 s n)
  else (0, s)

/-- START routes the spare into its use again (R130, R131). -/
def spareStart (s : State) (n : Nat) : State :=
  if get s (BNK.SPARE_SUSE n) = 2 then setRot s n (some {}) else s

/-! ### What a seal locks (R160, R161) -/

/-- Whether a bank is designated for the seal (R160). -/
def designated (s : State) (n : Nat) : Bool :=
  if n < 32 then bit (get s MTR.MDESLO_BANKS) n else bit (get s MTR.MDESHI_BANKS) (n - 32)

/-- Whether a seal operation has the legally relevant fields locked: MTR in SEALED or FAULT, or a seal in progress (R161, R163,
R170). -/
def sealLocks (s : State) : Bool :=
  pstate s pMTR = stSEALED || pstate s pMTR = stFAULT ||
    (match s.mtr.op with
      | some (.sealing ..) => true
      | _ => false)

/-! ### Bank commands (R90) -/

/-- Whether the bank's group is changing its economy mode (R117). -/
def ecoChanging (s : State) (n : Nat) : Bool := decide (n < 48) && bit s.pwr.ecoPend (n / 8)

/-- Whether a quad of the bank has QM other than 0. -/
def bankUsesQuads (s : State) (n : Nat) : Bool := decide (n < 48) && (List.range 4).any fun q => get s (BNK.QCFG_QM n q) != 0

/-- Whether EXC does not supply (R93). -/
def excDown (s : State) : Bool := pstate s pEXC = stOFF || pstate s pEXC = stFAULT

/-- Whether a commit with image `img` that stops the banks in the list would leave no heartbeat quad driving on an active unit with a
silent twin link, which R340 rejects with STATE. -/
def heartbeatStop (s img : State) (l : List Nat) : Bool :=
  (role s = rACTIVE || role s = rTAKEOVER) && twinSilent s && heartbeatDrives s &&
    !((List.range 48).any fun n => heartbeat img n && !l.contains n && (List.range 4).any fun q =>
      flag s (BNK.QSTAT_ON n q) && get img (BNK.QCFG_QM n q) != 0)

/-- The reasons a BCMD is rejected: of START, the quads are judged on the image (R28, R93); the others are locked while the bank is SEALED, and
from the commit of its seal on (R90, R161, R163). -/
def violBcmd (s img : State) (n off : Nat) (w : Word) : List Viol :=
  let op := wbits w 3 0
  let p := bankPage n
  let st := bstate s n
  if op = 0 then []
  else if 4 < op then [(.range, off)]
  else
    viol ((st = stSEALED || (sealLocks s && designated s n)) && op != 1) .locked off ++
    viol (flag s (hBUSY p) || (op = 1 && ecoChanging s n) || ((op = 1 || op = 4) && !fesRuns s)) .busy off ++
    viol (match op with
      | 1 => st != stIDLE || pstate s pFLT = stOFF || s.pwr.l0Bad || (bankUsesQuads img n && excDown s)
      | 2 => (st != stRUN && st != stTEST) || heartbeatStop s img [n]
      | 3 => st != stRUN
      | _ => st != stTEST) .state off

/-- A bank starts (R90; also under a seal): the blanking grid counts from now, polarity is positive, every active input is routed,
the quads drive and are judged afresh (R79, R81). QSTAT.IDEV clears here and nowhere else: R91 gives its onset only (DESIGN CHOICE, log
entry 108). -/
def bankStart (s : State) (n v : Nat) : State :=
  let s1 := setPState s (bankPage n) v
  let s2 := setBank s1 n { bank s1 n with grid := nowTicks s1, swapped := false, blanking := false, pendQ := 0
                                          effLevel := [], subCal := 0, held := false }
  let s3 := if n < 48 then
      forEach (List.range 4) (fun s q =>
        let s4 := clearQuadOpen (puts s [(BNK.QSTAT_POL n q, 0), (BNK.QSTAT_IDEV n q, 0)]) n q
        setBank s4 n { bank s4 n with effLevel := tset (bank s4 n).effLevel q (levelWord s4 n q) 0 }) s2
    else s2
  driveBank (refreshFlt (spareStart (noteCond (startRouting s3 n (activeMask s3 n)) n) n)) n

/-- A bank stops: inputs open, quads off, the spare disconnected, its use kept (R90, R130); a wind-down of the rotation ends with the L0
model restored (R131). SETST.SET reads 0 from now on, since nothing settles in a bank that has stopped, while the settle ends on record
stand: the spec is silent on both (DESIGN CHOICE, log entry 108). BDS of a limited quad ends with its own three periods (R84). -/
def bankHalt (s : State) (n v : Nat) : State :=
  let b := bank s n
  let wound : Bool := b.rot.any (·.windDown) && get s (BNK.SPARE_SUSE n) != 2
  let s1 := setBank (setPState s (bankPage n) v) n
    { b with route := none, rot := none, blanking := false, pendQ := 0, bg := if wound then 0 else b.bg
             held := get s (BNK.SPARE_SUSE n) != 0 }
  let s2 := put (setBusy s1 (bankPage n) false) (BNK.SETST_SET n) 0
  refreshFlt (driveBank (noteCond s2 n) n)

/-- The oldest tick that an output may still need a record of: 2^24 ticks back, more than the longest latency and period together. -/
def keepFrom (s : State) : Nat := nowTicks s - 2 ^ 24

/-- What a port lights changes to `m`: the stretch that was lit ends, and a new one begins (R100). -/
def litTo (s : State) (p m : Nat) : State :=
  let o := oport s p
  if o.lit = m then s
  else
    let t := nowTicks s
    let l := (o.lits.filter fun x => x.hi.all fun h => decide (keepFrom s ≤ h)).map fun x => { x with hi := some (x.hi.getD t) }
    setOport s p { o with lit := m, lits := if m = 0 then l else ⟨m, t, none⟩ :: l }

/-- A pulse that still lights strings of a port ends now. -/
def cutPulse (s : State) (p : Nat) : State :=
  let o := oport s p
  let t := nowTicks s
  if o.lits.any fun x => x.hi.any fun h => decide (t < h) then
    emit (setOport s p { o with lits := (o.lits.filter fun x => decide (x.lo ≤ t)).map fun x => { x with hi := x.hi.map (min t) } })
      (.optOff p)
  else s

/-- A probe whose compensation is still open ends now: nothing more is taken out of its port's pulses (R104). -/
def OptPort.closeProbe (o : OptPort) (t : Nat) : OptPort :=
  { o with comp := 0, probing := false, probes := o.probes.map fun x => (x.1, some (x.2.getD t)) }

/-- A port's strings turn off and it takes a state. -/
def portOff (s : State) (p st : Nat) : State :=
  let s1 := litTo (puts s [(OPTP.PST_STATE p, st), (OPTP.PST_DRV p, 0), (OPTP.PST_LIM p, 0), (OPTP.PST_BLIND p, 0)]) p 0
  let s2 := cutPulse s1 p
  setOport s2 p { (oport s2 p).closeProbe (nowTicks s2) with dark := false }

/-- A port of OBK follows OBK out of RUN, TEST and SEALED as under STOP (R106). -/
def portsFollowObk (s : State) : State :=
  if producing s 48 then s
  else forEach (List.range 16) (fun s p =>
    if get s (OPTP.PST_STATE p) = stRUN then portOff s p stIDLE else s) s

/-- STOP of a bank. -/
def bankStop (s : State) (n : Nat) : State :=
  let s1 := bankHalt s n stIDLE
  if n = 48 then portsFollowObk s1 else s1

/-- TESTIN: the rotation pauses after its step (R130). -/
def bankTestIn (s : State) (n : Nat) : State :=
  let s1 := setPState s (bankPage n) stTEST
  match (bank s1 n).rot with
  | some r => windDown s1 n r
  | none => s1

/-- TESTOUT: TINJ.MASK clears with its routing, and the rotation resumes with the spare's own step, once a step that still winds down
has ended. -/
def bankTestOut (s : State) (n : Nat) : State :=
  let m := get s (BNK.TINJ_MASK n)
  let s1 := startRouting (put (setPState s (bankPage n) stRUN) (BNK.TINJ_MASK n) 0) n m
  match (bank s1 n).rot with
  | some r => if r.paused then setRot s1 n (some {}) else s1
  | none => s1

/-- The effect of an accepted BCMD. -/
def effBcmd (s : State) (n : Nat) (w : Word) : State :=
  match wbits w 3 0 with
  | 1 => bankStart s n stRUN
  | 2 => bankStop s n
  | 3 => bankTestIn s n
  | 4 => bankTestOut s n
  | _ => s

/-- A bank enters FAULT (R90): quads off, the spare disconnected. -/
def bankToFault (s : State) (n : Nat) : State :=
  let s1 := bankHalt s n stFAULT
  if n = 48 then portsFollowObk s1 else s1

/-- BANK_FAULT (R90): a routing switch check or quad driver fails. -/
def execBankFault (n : Nat) (s : State) : Host.Outcome State Fault Refusal :=
  if 49 ≤ n then .fault .noSuchUnit
  else if producing s n then .next (bankToFault s n)
  else .next s

/-- DRVFLT (R93): the excitation supply fails; the quads turn off and every bank with a driving quad enters FAULT. -/
def execDrvflt (s : State) : Host.Outcome State Fault Refusal :=
  if pstate s pEXC = stOFF ∨ pstate s pEXC = stFAULT then .next s
  else
    let l := (List.range 48).filter (bankDrives s)
    .next (forEach l bankToFault (setPState (raise s pEXC 9) pEXC stFAULT))

/-! ### The BNK and EXC pages under a write (R76, R78, R80, R82, R91–R93, R118, R137, R142) -/

/-- Whether a field differs between the state and the image. -/
def chg (s img : State) (f : Fld) : Bool := get s f != get img f

/-- The gains a MODE accepts (R75). -/
def gainOk (mode gain : Nat) : Bool :=
  match mode with
  | 3 => decide (gain ≤ 3)
  | 4 => gain = 0
  | 5 => decide (gain ≤ 2)
  | _ => decide (gain ≤ 4)

/-- Whether a quad agrees with its channels (R76). -/
def quadAgrees (s : State) (n q : Nat) : Bool :=
  let m (i : Nat) : Nat := get s (BNK.CHCFG_MODE n (4 * q + i))
  let all (ok : Nat → Bool) : Bool := ok (m 0) && ok (m 1) && ok (m 2) && ok (m 3)
  match get s (BNK.QCFG_QM n q) with
  | 0 => all fun x => x != 2 && x != 3
  | 1 => all fun x => x = 2 || x = 0
  | _ => all fun x => x = 3 || x = 0

/-- Whether LEVEL and ILOAD are legal for the quad mode (R80). -/
def levelOk (s : State) (n q : Nat) : Bool :=
  let lv := get s (BNK.QCFG_LEVEL n q)
  let il := get s (BNK.QCFG_ILOAD n q)
  match get s (BNK.QCFG_QM n q) with
  | 0 => lv = 0 && il = 0
  | 1 => decide (50 ≤ lv) && decide (lv ≤ 500) && decide (il ≤ 60)
  | _ => decide (1 ≤ lv) && decide (lv ≤ 100) && il = 0

/-- Whether a live OPEN entry on path M covers a channel of the bank and satisfies `ok`. -/
def liveOpenM (s : State) (n : Nat) (ok : Ent → Bool) : Bool :=
  (liveEnts s).any fun e => e.act = actOPEN && e.path = 0 && ctxHasBank s e.ctx n && ok e

/-- Whether FRESP's legal set holds on the image (R135, R137 step 1, R118): RESP permitted at CICD's rate, and the economy limit. -/
def frespLegal (img : State) (n : Nat) : Bool :=
  let cicd := get img (BNK.FRESP_CICD n)
  mwin img n ||
    ((match rateIdx cicd with
      | some i => bit (resp (get img (BNK.FRESP_RESP n))).rates i
      | none => false) &&
      !(ecoBit img n && (cicd % 4 != 0 || decide (cicd < 256))))

/-- Whether a port in CONT and RUN holds a duty-band code (R97, R98). -/
def dutyCont (s : State) (p : Nat) : Bool :=
  let band (x : Nat) : Bool := decide (1 ≤ x) && decide (x ≤ 134)
  let col := get s (OPTP.PCFG_COL p)
  get s (OPTP.PCFG_PM p) = 1 && get s (OPTP.PST_STATE p) = stRUN &&
    ((bit col 0 && band (get s (OPTP.PSET_SA p))) || (bit col 1 && band (get s (OPTP.PSET_SB p))))

/-- Whether OBK's output period is a whole number of 50 µs: its rate divides 20,000 Sa/s (R98). -/
def obkPwmOk (s : State) : Bool := !mwin s 48 && periodTicks s 48 * 10 % 3072 = 0

/-- Whether the image changes FRESP. -/
def frespChanged (s img : State) (n : Nat) : Bool :=
  chg s img (BNK.FRESP_MWIN n) || chg s img (BNK.FRESP_MWN n) || chg s img (BNK.FRESP_RESP n) || chg s img (BNK.FRESP_CICD n)

/-- The reasons a FRESP word is rejected (R92, R98, R118, R137, R142). -/
def violFresp (s img : State) (n off : Nat) : List Viol :=
  let newP := periodTicks img n
  let perChg := !mwin img n && (mwin s n || periodTicks s n != newP)
  viol (!frespLegal img n) .range off ++
  viol (n = 48 && (List.range 16).any (dutyCont img) && !obkPwmOk img) .range off ++
  viol (frespChanged s img n && mwin img n &&
    (!flag s AXS.MCFG_MEN || liveOpenM s n fun e => e.axis = axTIME)) .state off ++
  viol (perChg && liveOpenM s n fun e => e.start % newP != 0 || e.step % newP != 0) .state off ++
  viol ((perChg || mwin img n != mwin s n || (mwin img n && chg s img (BNK.FRESP_MWN n))) && decide (n < 48) &&
    (liveEnts s).any fun e => swapNames e n) .state off

/-- Whether the image changes one of the fields of a CHCFG word of the bank. -/
def chcfgChanged (s img : State) (n k : Nat) : Bool :=
  chg s img (BNK.CHCFG_MODE n k) || chg s img (BNK.CHCFG_GAIN n k) ||
    (if n = 48 then chg s img (OBK.CHCFG_RF k) || chg s img (OBK.CHCFG_BIAS k) else chg s img (BNK.CHCFG_IEPEI n k))

/-- Whether the image changes one of the fields of a QCFG word of the bank. -/
def qcfgChanged (s img : State) (n q : Nat) : Bool :=
  chg s img (BNK.QCFG_QM n q) || chg s img (BNK.QCFG_ILOAD n q) || chg s img (BNK.QCFG_LSNS n q) || chg s img (BNK.QCFG_LEVEL n q)

/-- Whether a routing sequence would be needed and FES does not run (R352). -/
def fesNeeded (s : State) (n : Nat) (b : Bool) : Bool := b && producing s n && !fesRuns s

/-- The reasons a word of a bank's registers is rejected beyond the fields' own legal sets. `off` is the offset on the page. -/
def violBank (s img : State) (n off : Nat) (w : Word) : List Viol :=
  let o := if n = 48 then off - 0x400 else off
  let busy := flag s (hBUSY (bankPage n))
  let st := bstate s n
  if o = 0x40 then violBcmd s img n off w
  else if o = 0x44 then viol (decide (n < 48) && flag img (BNK.XCTL_PAEN n) && decide (get img (BNK.XCTL_BLANK n) < 16)) .range off
  else if o = 0x48 then violFresp s img n off
  else if o = 0x4C then
    let su := get s (BNK.SPARE_SUSE n)
    let sv := get img (BNK.SPARE_SUSE n)
    let ch := su != sv || chg s img (BNK.SPARE_SCHN n)
    viol (ch && (st = stOFF || st = stFAULT)) .state off ++
    viol ((su = 1 && sv = 2) || (su = 2 && sv = 1) || (su != sv && (bank s n).held) ||
      (su = 2 && sv != 2 && (bank s n).rot.any fun r => r.paused || r.windDown)) .state off ++
    viol ((ch && busy) || fesNeeded s n ch) .busy off
  else if o = 0x50 then
    let ch := chg s img (BNK.TINJ_MASK n) || chg s img (BNK.TINJ_LVL n)
    viol (ch && st != stTEST) .state off ++ viol ((ch && busy) || fesNeeded s n ch) .busy off
  else if 0x60 ≤ o ∧ o < 0x70 then
    let q := (o - 0x60) / 4
    let ch := qcfgChanged s img n q
    viol (!levelOk img n q || !quadAgrees img n q) .range off ++
    viol (ch && decide (loadE7 img > get img EXC.EXLIM_LIM * 100000)) .range off ++
    viol ((st = stRUN || st = stTEST) && get s (BNK.QCFG_QM n q) = 0 && get img (BNK.QCFG_QM n q) != 0 && excDown s) .state off ++
    viol (chg s img (BNK.QCFG_QM n q) && get img (BNK.QCFG_QM n q) = 0 && heartbeatStop s img []) .state off ++
    viol ((ch && busy) || fesNeeded s n (chg s img (BNK.QCFG_QM n q))) .busy off
  else if 0xC0 ≤ o ∧ o < 0x100 then
    let k := (o - 0xC0) / 4
    let ch := chcfgChanged s img n k
    viol (!gainOk (get img (BNK.CHCFG_MODE n k)) (get img (BNK.CHCFG_GAIN n k))) .range off ++
    viol (decide (n < 48) && !quadAgrees img n (k / 4)) .range off ++
    viol (decide (n < 48) && ch && decide (loadE7 img > get img EXC.EXLIM_LIM * 100000)) .range off ++
    viol ((ch && busy) || fesNeeded s n ch) .busy off
  else []

/-- The reasons a word of page EXC is rejected (R93, R340): LIM below the load; ALLOFF that stops the heartbeat. -/
def violEXC (s img : State) (off : Nat) (w : Word) : List Viol :=
  if off = 0x44 then viol (decide (loadE7 img > get img EXC.EXLIM_LIM * 100000)) .range off
  else if off = 0x4C then
    viol (wbits w 0 0 = 1 && heartbeatStop s img ((List.range 48).filter fun n => bstate s n = stRUN || bstate s n = stTEST)) .state off
  else []

/-- ALLOFF (R93): every unsealed bank in RUN or TEST executes STOP. -/
def allOff (s : State) : State :=
  forEach ((List.range 48).filter fun n => bstate s n = stRUN || bstate s n = stTEST) bankStop s

/-- The inputs of a bank whose connection a commit changes: MODE, GAIN (and RF or BIAS on OBK), QM of the quad, test injection. -/
def rerouted (old s : State) (n : Nat) : Nat :=
  maskOf ((List.range 16).filter fun k =>
    chg old s (BNK.CHCFG_MODE n k) || chg old s (BNK.CHCFG_GAIN n k) ||
      (if n = 48 then chg old s (OBK.CHCFG_RF k) || chg old s (OBK.CHCFG_BIAS k) else chg old s (BNK.QCFG_QM n (k / 4))) ||
      (bstate s n = stTEST && (bit (get old (BNK.TINJ_MASK n)) k != bit (get s (BNK.TINJ_MASK n)) k ||
        (bit (get s (BNK.TINJ_MASK n)) k && chg old s (BNK.TINJ_LVL n)))))

/-- A slice whose channel's gain changed (on OBK its RF also selects the L0 entry) goes back to the L0 model (R122, R129). -/
def forgetGain (old : State) (n : Nat) (s : State) (k : Nat) : State :=
  if chg old s (BNK.CHCFG_GAIN n k) || (n = 48 && chg old s (OBK.CHCFG_RF k)) then forgetBg s n k else s

/-- A quad after a commit: a changed QM re-establishes it; a changed LEVEL or LSNS waits for the next blanking window (R79, R83). -/
def quadCommit (old : State) (n : Nat) (s : State) (q : Nat) : State :=
  if chg old s (BNK.QCFG_QM n q) then
    let s1 := clearQuadOpen s n q
    setBank s1 n { bank s1 n with effLevel := tset (bank s1 n).effLevel q (levelWord s1 n q) 0 }
  else if levelWord old n q != levelWord s n q ∧ producing s n then
    setBank s n { bank s n with pendQ := (bank s n).pendQ ||| 2 ^ q }
  else s

/-- A FRESP commit on a sampling bank (R137, R144): the chains restart and every channel settles; a bank that enters mains-window mode awaits
both points of its settle (R143, R145). -/
def restartFresp (old s : State) (n : Nat) : State :=
  let s1 := restartChains s n
  forEach (List.range 16) (fun s k => restartFrom s (16 * n + k) (if mwin old n then inFlight s (16 * n + k) else [])) s1

/-- What a committed burst on a bank's page does beyond setting its fields: routing, quads, filter restart and spare. -/
def afterBank (old s : State) (n : Nat) : State :=
  let s1 := forEach (List.range 16) (forgetGain old n) s
  let s2 := if n < 48 then forEach (List.range 4) (quadCommit old n) s1 else s1
  if producing s2 n then
    let m := rerouted old s2 n
    let o := get old (BNK.SPARE_SUSE n)
    let v := get s (BNK.SPARE_SUSE n)
    let oc := get old (BNK.SPARE_SCHN n)
    let c := get s (BNK.SPARE_SCHN n)
    let sp := if o != v || (v = 1 && oc != c) then spareChange (setBank s2 n { bank s2 n with subCal := 0 }) n o oc v c else (0, s2)
    let s3 := startRouting (rotReroute sp.2 n m) n (m ||| sp.1)
    let s4 := driveBank s3 n
    if frespChanged old s4 n then restartFresp old s4 n else s4
  else
    let s3 := if get old (BNK.SPARE_SUSE n) = 2 ∧ get s (BNK.SPARE_SUSE n) = 0 then setBank s2 n { bank s2 n with bg := 0 } else s2
    driveBank (if frespChanged old s3 n then restartChains s3 n else s3) n

/-! ### Power-up self-check and economy changes (R117, R125) -/

/-- The banks of a PAFE domain 3–8, or OBK for PD_OPT. -/
def domainBanks (d : Nat) : List Nat := if d = 10 then [48] else (List.range 8).map fun k => 8 * (d - 3) + k

/-- A self-check result corrected by L0 alone (R125, step 3). An OBK modulator's entry is that of RF code 0 (DESIGN CHOICE, log entry 108). -/
def checkCode (s : State) (f : CheckVal) (x : Int) : Int :=
  (correctL0 s (l0Index f.modl f.gain 0) x (2 ^ 30) 0).v

/-- Whether a modulator passes the self-check at a gain (R125): zero within ±0.05 % of FSR, and ±50 % within ±0.1 % of the expected
code, which is ±0x33_3333. -/
def checkPasses (s : State) (f : CheckVal) : Bool :=
  let near (x e : Int) : Bool := decide ((x - e).natAbs * 1000 ≤ 0x333333)
  decide ((checkCode s f f.zero).natAbs * 2000 ≤ 2 * 0x666666) && near (checkCode s f f.plus) 0x333333 &&
    near (checkCode s f f.minus) (-0x333333)

/-- The check of a domain's modulators completes (R125): BUSY clears, and each modulator that fails is logged with m, g and the
values. The L0 record is verified once per power-up of the hub; where its signature fails every bank and OBK stays in IDLE. -/
def selfCheck (d : Nat) (good : Bool) (vals : List CheckVal) (s : State) : State :=
  let s1 := forEach (domainBanks d) (fun s n =>
    let s2 := setBank s n { bank s n with checking := false }
    if producing s2 n then s2 else setBusy s2 (bankPage n) false) s
  let bad := vals.filter fun f => (domainBanks d).contains (f.modl / 17) && !checkPasses s1 f
  let s3 := bad.foldl (fun s f =>
    logWith [f.modl, f.gain, f.zero, f.plus, f.minus] s (bankPage (f.modl / 17)) Config.codeSelfCheck.toNat srcHW) s1
  if s.pwr.l0Seen then s3 else { s3 with pwr := { s3.pwr with l0Seen := true, l0Bad := !good } }

/-- ECO_CHANGE (R117): the group's new mode takes effect, and the settle of every channel of the group restarts. -/
def execEcoChange (g : Nat) (s : State) : Host.Outcome State Fault Refusal :=
  if 6 ≤ g then .fault .noSuchUnit
  else if bit s.pwr.ecoPend g then
    let eco := maskOf ((List.range 6).filter fun i => if i = g then bit (get s PWR.AFEMD_ECO) g else bit s.pwr.eco i)
    let s1 := { s with pwr := { s.pwr with eco := eco, ecoPend := maskOf ((bitsOf s.pwr.ecoPend 6).filter (· != g)) } }
    .next (forEach (domainBanks (3 + g)) (fun s n => restartMask s n 0xFFFF) s1)
  else .next s

end Sys2Proof.Machine
end

