-- ==== Sys2Proof/Machine/Opt.lean ====
section
/-! DEFINITION. Optical ports and illumination drive: setpoint codes (R97), port modes and states (R98–R108), the power limit (R101),
diagnosis (R102–R105), and page OPT (R109–R112). -/

namespace Sys2Proof.Machine

/-! ### Setpoint codes (R97) -/

/-- 10^(−k/40) for k = 0–39, in 10^-30, rounded to nearest. -/
def pow40 : List Nat :=
  [1000000000000000000000000000000, 944060876285923380364380496602, 891250938133745529953108681078, 841395141645195091152741893800,
   794328234724281502065918282836, 749894209332455827302184275615, 707945784384137910802214942189, 668343917568614608362574467388,
   630957344480193249434360136622, 595662143529010460509798282527, 562341325190349080394951039776, 530884444230988352200461868368,
   501187233627272285001554186885, 473151258961480478903271112020, 446683592150963118556250524319, 421696503428582248569013359509,
   398107170553497250770252305088, 375837404288444167377710959150, 354813389233575458433218702264, 334965439157827659548772619090] ++
  [316227766016837933199889354443, 298538261891795961791327696252, 281838293126445381910192369916, 266072505979880963499131170263,
   251188643150958011108503206780, 237137370566165526165175275748, 223872113856833961195495085247, 211348903983664679556034531738,
   199526231496887960135245539674, 188364908948980053500089115021, 177827941003892280122542119519, 167880401812256031397195008042,
   158489319246111348520210137339, 149623565609443341188028511439, 141253754462275430215560786393, 133352143216332402567593171530,
   125892541179416721042395410640, 118850222743701843773012246489, 112201845430196343559103894648, 105925372517728887880928037328]

/-- 10^(−k/40) in 10^-30: the factor I × D has against 100 mA for a code 255 − k (R97). -/
def decay (k : Nat) : Nat := pow40.getD (k % 40) 0 / 10 ^ (k / 40)

/-- The lit time per PWM period of a code, in 10^-30 of 50 µs: D = 10^(−max(A − 30, 0)/10); code 0 is dark. -/
def duty (code : Nat) : Nat := if code = 0 then 0 else if 135 ≤ code then 10 ^ 30 else decay (135 - code)

/-- 10^(−0.01), 0.1 dB down, in 10^-30. -/
abbrev tenthDb : Nat := 977237220955810682697076006962

/-- A string's current I in 10^-30 of 100 mA: 10^(−min(A, 30)/10); code 0 is dark. -/
def stringCurrent (code : Nat) : Nat := if code = 0 then 0 else decay (min (255 - code) 120)

/-- A colour's part of a pair. -/
def ofCol (x : Nat × Nat) (colB : Bool) : Nat := if colB then x.2 else x.1
def toCol (x : Nat × Nat) (colB : Bool) (v : Nat) : Nat × Nat := if colB then (x.1, v) else (v, x.2)

/-- The current a string is driven with: its trimmed current under the limiter's common factor k (R99, R101). -/
def driveCurrent (s : State) (p : Nat) (colB : Bool) : Nat := ofCol (oport s p).cur colB * s.optK / 10 ^ 30

/-- Codes of a colour (false A, true B) as set and as in effect. -/
def setCode (s : State) (p : Nat) (colB : Bool) : Nat := if colB then get s (OPTP.PSET_SB p) else get s (OPTP.PSET_SA p)
def effCode (s : State) (p : Nat) (colB : Bool) : Nat := if colB then (oport s p).eff / 256 else (oport s p).eff % 256

/-- Emitters in a colour's string. -/
def emitters (s : State) (p : Nat) (colB : Bool) : Nat := if colB then get s (OPTP.PCFG_NEMB p) else get s (OPTP.PCFG_NEMA p)

/-- A string's forward voltage in mV: as last measured, or 3.0 V × its emitters before the first measurement (R96). -/
def fwdMv (s : State) (p : Nat) (colB : Bool) : Nat :=
  let v := if colB then get s (OPTP.PVF_VFB p) else get s (OPTP.PVF_VFA p)
  if v = 0 then 3000 * emitters s p colB else v

/-- Whether a CONT port's colour is to be lit: selected, with emitters, and its code not dark (R97, R100, R102). -/
def contColour (s : State) (p : Nat) (colB : Bool) : Bool :=
  bit (get s (OPTP.PCFG_COL p)) colB.toNat && emitters s p colB != 0 && setCode s p colB != 0

/-- The lit mask a CONT port has while it drives: bit 0 A, bit 1 B. -/
def contMask (s : State) (p : Nat) : Nat := (contColour s p false).toNat + 2 * (contColour s p true).toNat

/-! ### Load and limit (R96, R101) -/

/-- A lit colour's load in 10^-30 of 0.1 mW: (VF + 0.6 V) × 100 mA × 10^(−A/10). -/
def colourLoad (s : State) (p : Nat) (colB : Bool) : Nat :=
  if contColour s p colB then (fwdMv s p colB + 600) * decay (255 - setCode s p colB) else 0

/-- The programmed load in 10^-30 of 0.1 mW: the colours of CONT ports in RUN. -/
def opLoadRaw (s : State) : Nat :=
  ((List.range 16).map fun p =>
    if get s (OPTP.PCFG_PM p) = 1 ∧ get s (OPTP.PST_STATE p) = stRUN then colourLoad s p false + colourLoad s p true else 0).sum

/-- The limit in 10 mW units: OPLIM, halved while the supply is at or below SAG1. -/
def opLimit2 (s : State) : Nat := if get s PWR.SLVL_LEVEL = 0 then 2 * get s OPT.OPLIM_LIM else get s OPT.OPLIM_LIM

/-- Whether the programmed load exceeds the limit (limit in half units). -/
def opOver (s : State) : Bool := decide (2 * opLoadRaw s > opLimit2 s * 100 * 10 ^ 30)

/-! ### Lighting -/

/-- While the limiter holds k < 1, a port whose strings are lit shows it, and its channel's BDS outlasts it (R101). -/
def showLim (s : State) (p : Nat) : State :=
  if s.optK < 10 ^ 30 then setOport (putB (tagBds s (768 + p) true) (OPTP.PST_LIM p) true) p { oport s p with tail := true } else s

/-- Set what a port lights; PST.DRV follows, and no string drives unless the role does (R108). -/
def setLit (s : State) (p mask : Nat) : State :=
  let m := if roleDrives s && s.boostUp then mask else 0
  let s1 := putB (litTo s p m) (OPTP.PST_DRV p) (m != 0)
  if m = 0 then s1 else showLim s1 p

/-- The strings of a port that its record has as lit within the ticks after `lo` up to `g`. -/
def litSpan (s : State) (p lo g : Nat) : Nat :=
  ((oport s p).lits.filter fun x => decide (x.lo ≤ g) && x.hi.all fun h => decide (lo < h)).foldl (fun a x => a ||| x.mask) 0

/-- The strings of a port that were lit within the ticks after `lo` up to `g` (R100). On a standby with shared optics they are those that
the partner lights for it (R108). -/
def litIn (s : State) (p lo g : Nat) : Nat :=
  litSpan s p lo g |||
    (if role s = rSTANDBY ∧ get s OPT.OSHR_SHR = 1 ∧ get s (OPTP.PST_STATE p) = stRUN ∧ get s (OPTP.PCFG_PM p) = 1 then contMask s p else 0)

/-- The strings of a port that this unit drove within the last PWM period: those lit, and those that a pulse lit in it. -/
def litLast (s : State) (p : Nat) : Nat :=
  (oport s p).lit ||| (if roleDrives s then litSpan s p (nowTicks s - 308) (nowTicks s) else 0)

/-- The strings of a PULSE port that a pulse lights now. -/
def pulseNow (s : State) (p : Nat) : Nat := if roleDrives s && s.boostUp then litSpan s p (nowTicks s - 1) (nowTicks s) else 0

/-- The need of a port's strings in a mask, mV: the larger VF + 0.6 V (R96). -/
def stringNeed (s : State) (p mask : Nat) : Nat :=
  max (if bit mask 0 then fwdMv s p false + 600 else 0) (if bit mask 1 then fwdMv s p true + 600 else 0)

/-- Millivolts in the units of V_B, 2^-33 mV: a CCLK cycle's increment is then its rise at 0.5 V/µs (R96). -/
abbrev mvUnit : Nat := 2 ^ 33

/-- The limiter's factor k (R101): the limit against the programmed load, and against the measured power; the onset raises OPWRLIM, and each
lit port shows it while k < 1. -/
def relimit (s : State) : State :=
  let lim := opLimit2 s * 100 * 10 ^ 30
  let kl := if 2 * opLoadRaw s > lim then lim * 10 ^ 30 / (2 * opLoadRaw s) else 10 ^ 30
  let k := if roleDrives s then min kl s.optM else 10 ^ 30
  if k = s.optK then s
  else
    let s1 := { s with optK := k }
    if k < 10 ^ 30 then
      let s2 := forEach (List.range 16) (fun s p => if (oport s p).lit != 0 then showLim s p else s) s1
      if s.optK < 10 ^ 30 then s2 else raise s2 pOPT 14
    else forEach (List.range 16) (fun s p => putB s (OPTP.PST_LIM p) false) s1

/-- Clear the OPN of an OBK channel (R103: until the port is cleared and started again). -/
def clearObkOpn (s : State) (p : Nat) : State :=
  let s1 := setChan s (768 + p) { chan s (768 + p) with opnFrom := none }
  putBit s1 (BNK.CHST_OPN 48) p false

/-- A port starts (R106): V_B is raised, and a CONT port waits dark for it; the codes take effect. The channel's settle restarts with the
lit strings (R144), which of a PULSE port the live table's pulses light: its settle restarts at once. -/
def portStart (s : State) (p : Nat) : State :=
  let s1 := put { s with boostUp := true } (OPTP.PST_STATE p) stRUN
  let a := get s1 (OPTP.PSET_SA p)
  let b := get s1 (OPTP.PSET_SB p)
  let s2 := setOport s1 p { (oport s1 p).closeProbe (nowTicks s1) with
    dark := get s1 (OPTP.PCFG_PM p) = 1, blindRaised := false, eff := b * 256 + a
    cur := (stringCurrent a, stringCurrent b), rem := (0, 0), drove := 0, darkA := [], darkB := [], darkAB := [] }
  let s3 := clearObkOpn s2 p
  if get s1 (OPTP.PCFG_PM p) = 1 then s3 else restartSettle s3 (768 + p)

/-- BOOST_READY (R96): V_B has reached the need of a CONT port's strings, which then light; the channel's settle restarts (R144). -/
def execBoostReady (p : Nat) (s : State) : Host.Outcome State Fault Refusal :=
  if 16 ≤ p then .fault .noSuchUnit
  else if get s (OPTP.PST_STATE p) = stRUN ∧ (oport s p).dark ∧ s.boostUp then
    let s1 := { setOport s p { oport s p with dark := false } with vb := max s.vb (min 12000 (stringNeed s p (contMask s p)) * mvUnit) }
    .next (restartSettle (setLit s1 p (contMask s p)) (768 + p))
  else .next s

/-! ### Faults (R96, R102, R103, R107) -/

/-- The PWM period now in progress: periods of 50 µs start at each whole second (R98). -/
def pwmNow (s : State) : Nat := nowNs s / 50000

/-- A port enters FAULT with a cause, and its OBK channel carries OPN from tick `g` on, also on what its slots hold already. -/
def portFault (s : State) (p cause g : Nat) : State :=
  let s0 := put (portOff s p stFAULT) (OPTP.PST_CAUSE p) cause
  let s1 := setOport s0 p { oport s0 p with faultP := some (pwmNow s) }
  let s2 := tagOpn (setChan s1 (768 + p) { chan s1 (768 + p) with opnFrom := some g }) (768 + p) g
  raise (putBit s2 (BNK.CHST_OPN 48) p true) pOPT 8

/-- Whether a port is in IDLE or RUN. -/
def portLive (s : State) (p : Nat) : Bool := get s (OPTP.PST_STATE p) = stIDLE || get s (OPTP.PST_STATE p) = stRUN

/-- A port that its group has just taken into FAULT finds its own fault in the same PWM period: it records its own cause (R107). -/
def ownCause (s : State) (p cause g : Nat) : State :=
  let s1 := put s (OPTP.PST_CAUSE p) cause
  tagOpn (setChan s1 (768 + p) { chan s1 (768 + p) with opnFrom := some (min g ((chan s1 (768 + p)).opnFrom.getD g)) }) (768 + p) g

/-- A string fault of R102, judged after 2 µs of drive by the string's current (10 µA) and voltage (mV): open (1, 2) below 50 % of its
target with the string at V_B = 12.0 V, short (3, 4) below 0.8 V an emitter. A string without emitters is never judged, nor is one that
has had no drive interval of 2 µs, nor any on a unit that does not drive (R108). -/
def stringCause (s : State) (p : Nat) (colB : Bool) (cur vf : Nat) : Option Nat :=
  if !roleDrives s || emitters s p colB = 0 || !bit (oport s p).drove colB.toNat then none
  else if 12000 ≤ vf ∧ 2 * cur * 10 ^ 30 < driveCurrent s p colB * 10 ^ 4 then some (1 + colB.toNat)
  else if vf < 800 * emitters s p colB then some (3 + colB.toNat)
  else none

/-- A dark path of R102 by the record of 8 consecutive dark periods: in both colours' periods, or in periods with both lit (7), or in one
colour's own (5, 6). Its first period. -/
def darkCause (s : State) (p : Nat) : Option (Nat × Nat) :=
  let o := oport s p
  let eight (l : List Nat) : Option Nat := if l.length = 8 then l.getLast? else none
  match (if o.darkAB.foldl (fun a x => a ||| x.2) 0 = 3 then eight (o.darkAB.map (·.1)) else none), eight o.darkA, eight o.darkB with
  | some g, _, _ => some (7, g)
  | none, some a, _ => some (5, a)
  | none, none, some b => some (6, b)
  | none, none, none => none

/-- What a port is found to have: the cause, and the tick its channel is tainted from (R102, R103). The dark checks of a standby run on the
partner's light where optics are shared (R108). -/
def portCause (s : State) (p : Nat) (colB : Bool) (cur vf : Nat) : Option (Nat × Nat) :=
  match stringCause s p colB cur vf with
  | some c => some (c, nowTicks s)
  | none => if roleDrives s ∨ get s OPT.OSHR_SHR = 1 then darkCause s p else none

/-- PFAULT (R102, R103): the port is judged by the state and by a string's current and voltage; it, then every other port of its non-zero
group, enters FAULT; PFAULT is raised. -/
def execPfault (p : Nat) (r : StringRead) (s : State) : Host.Outcome State Fault Refusal :=
  if 16 ≤ p then .fault .noSuchUnit
  else match portCause s p r.colB r.cur r.vf with
    | none => .next s
    | some (cause, g) =>
      let grp := get s (OPTP.PCFG_FGRP p)
      let others := (List.range 16).filter fun r => r != p && grp != 0 && get s (OPTP.PCFG_FGRP r) = grp && portLive s r
      if portLive s p then .next (relimit (raise (forEach others (fun s r => portFault s r 8 g) (portFault s p cause g)) pOPT 10))
      else if get s (OPTP.PST_STATE p) = stFAULT ∧ get s (OPTP.PST_CAUSE p) = 8 ∧ (oport s p).faultP = some (pwmNow s) then
        .next (raise (ownCause s p cause g) pOPT 10)
      else .next s

/-- BOOST (R96): the boost stage fails; every string turns off and every port in IDLE or RUN enters FAULT with cause BOOST. -/
def execBoost (s : State) : Host.Outcome State Fault Refusal :=
  let l := (List.range 16).filter (portLive s)
  let s1 := forEach l (fun s p => portFault s p 9 (nowTicks s)) { s with boostUp := false }
  .next (relimit (if l.isEmpty then s1 else raise s1 pOPT 10))

/-! ### PWM periods, regulation, limiter (R98, R99, R101) -/

/-- Whether a code's lit time is below 2 µs: its duty is below 4 % (R97). -/
def lowDuty (code : Nat) : Bool := decide (1 ≤ code) && decide (code ≤ 79)

/-- Whether every lit colour of a CONT port has a lit time below 2 µs, so that no drive interval judges it (R105). -/
def shortLit (s : State) (p : Nat) : Bool :=
  let m := (oport s p).lit
  m != 0 && (!bit m 0 || lowDuty (effCode s p false)) && (!bit m 1 || lowDuty (effCode s p true))

/-- A blind port that a drive interval of 2 µs can judge again is blind no more (R105). -/
def seeAgain (s : State) (p : Nat) : State :=
  if flag s (OPTP.PST_BLIND p) ∧ (oport s p).lit ≠ 0 ∧ !shortLit s p then
    putB (setOport s p { oport s p with blindRaised := false }) (OPTP.PST_BLIND p) false
  else s

/-- A colour's PMFS and deviation fields. -/
def pmfsFld (p : Nat) (colB : Bool) : Fld := if colB then OPTP.PMFS_FSB p else OPTP.PMFS_FSA p
def mdevFld (p : Nat) (colB : Bool) : Fld := if colB then OPTP.PST_MDEVB p else OPTP.PST_MDEVA p

/-- A colour's monitor mean as last held. -/
def monOf (s : State) (p : Nat) (colB : Bool) : Nat := if colB then get s (OPTP.PMON_MONB p) else get s (OPTP.PMON_MONA p)

/-- The target monitor mean of a colour in 10^-30 (R99): PMFS × 10^(−A/10). -/
def monTarget (s : State) (p : Nat) (colB : Bool) : Nat := get s (pmfsFld p colB) * decay (255 - effCode s p colB)

/-- Whether a monitor mean lies within a band of its target; `d` is the band's lower edge as a factor, in 10^-30. -/
def withinBand (mon target d : Nat) : Bool := decide (target * d ≤ mon * 10 ^ 60) && decide (mon * d ≤ target)

/-- Whether a colour is under regulation: its port runs, it was lit in the last PWM period, and its reading at A = 0 is known (R99). -/
def regulates (s : State) (p : Nat) (colB : Bool) : Bool :=
  get s (OPTP.PST_STATE p) = stRUN && bit (litLast s p) colB.toNat && get s (pmfsFld p colB) != 0 && effCode s p colB != 0

/-- The current a trim would give a string: proportional to the target (DEDUCED, log entry 109), unless the monitor is within ±0.1 dB; a
dark monitor asks for more than any limit. -/
def trimWant (s : State) (p : Nat) (colB : Bool) : Nat :=
  let c := ofCol (oport s p).cur colB
  let mon := monOf s p colB
  if withinBand mon (monTarget s p colB) tenthDb then c
  else if mon = 0 then 2 * 10 ^ 30 + c
  else c * monTarget s p colB / (mon * 10 ^ 30)

/-- The trim's limits for a code (R99): 3 dB either side of I, and never above 100 mA. -/
def trimLow (code : Nat) : Nat := stringCurrent code * decay 12 / 10 ^ 30
def trimHigh (code : Nat) : Nat := min (10 ^ 30) (stringCurrent code * 10 ^ 30 / decay 12)

/-- Whether a colour's trim is at its limit, or its monitor mean is outside ±0.5 dB of its target (R99). -/
def deviates (s : State) (p : Nat) (colB : Bool) : Bool :=
  regulates s p colB && (!withinBand (monOf s p colB) (monTarget s p colB) (decay 2) ||
    decide (trimHigh (effCode s p colB) < trimWant s p colB) || decide (trimWant s p colB < trimLow (effCode s p colB)))

/-- The trim of a colour in a PWM period (R99), suspended while the limiter acts (R101); at its limit MDEV is set and MONDEV raised. -/
def trimColour (p : Nat) (s : State) (colB : Bool) : State :=
  if !regulates s p colB || decide (s.optK < 10 ^ 30) then s
  else
    let code := effCode s p colB
    let want := trimWant s p colB
    let o := oport s p
    let s1 := setOport s p { o with cur := toCol o.cur colB (max (trimLow code) (min (trimHigh code) want)) }
    if trimHigh code < want ∨ want < trimLow code then raise (putB s1 (mdevFld p colB) true) pOPT 11 else s1

/-- A pending PSET takes effect at a PWM period (R98), not during a probe's compensation (R107): the port's OBK channel settles. The trim of
both colours starts afresh from their codes' currents, also of one whose code stands (DESIGN CHOICE, log entry 122). -/
def takeCodes (s : State) (p : Nat) : State :=
  let o := oport s p
  let a := get s (OPTP.PSET_SA p)
  let b := get s (OPTP.PSET_SB p)
  if o.comp = 0 ∧ !o.probing ∧ o.eff ≠ b * 256 + a then
    let s1 := setOport s p { o with eff := b * 256 + a, cur := (stringCurrent a, stringCurrent b), rem := (0, 0), drove := 0 }
    let s2 := if get s (OPTP.PST_STATE p) = stRUN ∧ get s (OPTP.PCFG_PM p) = 1 ∧ !o.dark then setLit s1 p (contMask s1 p) else s1
    restartSettle (seeAgain s2 p) (768 + p)
  else s

/-- A whole PWM period as light, and 2 µs of it. -/
abbrev wholeLight : Nat := 16 * 10 ^ 30
abbrev probeLight : Nat := 64 * 10 ^ 28

/-- CCLK cycles of a PWM period at the nominal increment (R98), and of a probe pulse of 2 µs, a part of a cycle counting as one. -/
abbrev pwmCycles : Nat := 12288
abbrev probeCycles : Nat := 492

/-- The compensation has taken out the probe's excess light: it ends with this PWM period (R104). -/
def endProbe (s : State) (p : Nat) : State :=
  let o := oport s p
  setOport s p { o with probes := match o.probes with
    | (a, none) :: r => (a, some (nowTicks s + 307)) :: r
    | l => l }

/-- The strings in `m` have had a drive interval, of 2 µs or longer where `long` says so (R102). -/
def OptPort.judged (o : OptPort) (m : Nat) (long : Bool) : Nat :=
  maskOf ((bitsOf o.drove 2).filter fun i => !bit m i) ||| (if long then m else 0)

/-- A string's pulse of a PWM period (R98, R104): its lit time in CCLK cycles, of which the part below a cycle is carried over to the next
period, so that the mean over 16 periods is within 1/16 of a cycle; a probe's excess is taken out of it, and the probe itself stands in
its place. -/
def driveColour (p : Nat) (s : State) (colB : Bool) : State :=
  let o := oport s p
  if !bit o.lit colB.toNat then s
  else if o.probing ∧ o.compB = colB then setOport s p { o with probing := false }
  else
    let u := 16 * duty (effCode s p colB)
    let cut := if o.compB = colB then min o.share (min o.comp u) else 0
    let n := ofCol o.rem colB + (u - cut) * pwmCycles
    let s1 := setOport s p { o with rem := toCol o.rem colB (n % wholeLight), comp := o.comp - cut
                                    drove := o.judged (2 ^ colB.toNat) !lowDuty (effCode s p colB) }
    let s2 := if 0 < o.comp ∧ o.comp = cut then endProbe s1 p else s1
    if n / wholeLight = 0 then s2 else emit s2 (.optDrive p (1 + colB.toNat) (n / wholeLight) (driveCurrent s2 p colB))

/-- PWM_PERIOD (R98, R99): a PWM period starts: the last one's measurements are held, each string's current is trimmed against its monitor,
a PSET commit that waits takes effect, and a CONT port drives its strings. -/
def execPwmPeriod (p monA monB iA iB vfA vfB : Nat) (s : State) : Host.Outcome State Fault Refusal :=
  if 16 ≤ p then .fault .noSuchUnit
  else
    let lit := litLast s p
    let s1 := puts s [(OPTP.PMON_MONA p, monA), (OPTP.PMON_MONB p, monB), (OPTP.PIMS_IA p, iA), (OPTP.PIMS_IB p, iB)]
    let s2 := if bit lit 0 then put s1 (OPTP.PVF_VFA p) vfA else s1
    let s3 := if bit lit 1 then put s2 (OPTP.PVF_VFB p) vfB else s2
    let s4 := takeCodes (trimColour p (trimColour p (relimit s3) false) true) p
    .next (relimit (driveColour p (driveColour p s4 false) true))

/-- PMFS_LEARN (R99): after 1 ms of open-loop drive PMFS becomes reading × 10^(A/10), rounded to nearest, ties up, which R99 leaves open
(DESIGN CHOICE, log entry 109); a product that the field does not hold is a free value. -/
def execPmfsLearn (p : Nat) (colB : Bool) (reading : Nat) (s : State) : Host.Outcome State Fault Refusal :=
  if 16 ≤ p then .fault .noSuchUnit
  else if get s (OPTP.PST_STATE p) = stRUN ∧ get s (pmfsFld p colB) = 0 ∧ effCode s p colB ≠ 0 then
    let v := roundUpHalf (reading * 10 ^ 30) (decay (255 - effCode s p colB))
    if v < 65536 then .next (put s (pmfsFld p colB) v)
    else
      let d := draw s
      .next (put d.2 (pmfsFld p colB) (Config.freeWord d.1).toNat)
  else .next s

/-- MONDEV (R99): a colour whose trim is at its limit, or whose monitor mean has stayed outside ±0.5 dB. -/
def execMondev (p : Nat) (colB : Bool) (s : State) : Host.Outcome State Fault Refusal :=
  if 16 ≤ p then .fault .noSuchUnit
  else if deviates s p colB then .next (raise (putB s (mdevFld p colB) true) pOPT 11)
  else .next s

/-- MONDEV_CLEAR (R99): regulation has held for 100 ms, which it does only in a colour that is regulated. -/
def execMondevClear (p : Nat) (colB : Bool) (s : State) : Host.Outcome State Fault Refusal :=
  if 16 ≤ p then .fault .noSuchUnit
  else if regulates s p colB && !deviates s p colB then .next (putB s (mdevFld p colB) false)
  else .next s

/-- OPWRLIM (R101): the delivered power over 100 ms is held in OPMEAS, and the limiter's factor follows it: what the present factor delivers
is scaled to the limit. -/
def execOpwrlim (pwr : Nat) (s : State) : Host.Outcome State Fault Refusal :=
  let s1 := put s OPT.OPMEAS_PWR pwr
  .next (relimit { s1 with optM := if pwr = 0 then 10 ^ 30 else min (10 ^ 30) (opLimit2 s1 * s1.optK / (2 * pwr)) })

/-- OPWRLIM_END (R101): three OBK output periods after k returned to 1 the channels' BDS ends. -/
def execOpwrlimEnd (s : State) : Host.Outcome State Fault Refusal :=
  .next (if s.optK < 10 ^ 30 then s
    else forEach (List.range 16) (fun s p =>
      if (oport s p).tail then tagBds (setOport s p { oport s p with tail := false }) (768 + p) false else s) s)

/-! ### Probes and blindness (R104, R105) -/

/-- The colour a probe lights (R104): the one whose turn it is, or the other where that one is not lit below 2 µs. -/
def probeColour (s : State) (p : Nat) : Option Bool :=
  let o := oport s p
  let ok (colB : Bool) : Bool := bit o.lit colB.toNat && lowDuty (effCode s p colB)
  if ok o.colB then some o.colB else if ok (!o.colB) then some (!o.colB) else none

/-- PROBE (R104): a low-duty CONT port lights one colour for 2 µs at its current in place of the pulse of the PWM period that starts; the
excess light is to be taken out of the following pulses, a sixteenth from each; a port so judged is not blind (R105). -/
def execProbe (p : Nat) (s : State) : Host.Outcome State Fault Refusal :=
  if 16 ≤ p then .fault .noSuchUnit
  else if flag s OPT.PRB_EN ∧ get s (OPTP.PCFG_PM p) = 1 ∧ get s (OPTP.PST_STATE p) = stRUN then
    match probeColour s p with
    | none => .next s
    | some colB =>
      let o := oport s p
      let e := probeLight - 16 * duty (effCode s p colB)
      let s1 := setOport s p { o with
        comp := e, compB := colB, share := e / 16, probing := true, colB := !colB, blindRaised := false, drove := o.drove ||| 2 ^ colB.toNat
        probes := (nowTicks s, none) :: o.probes.filter fun x => x.2.all fun h => decide (keepFrom s ≤ h) }
      .next (emit (putB s1 (OPTP.PST_BLIND p) false) (.optDrive p (1 + colB.toNat) probeCycles (driveCurrent s p colB)))
  else .next s

/-- Whether an output period, after tick `lo` up to `g`, contains part of a probe and its compensation that does not end within it (R104). -/
def probeIn (s : State) (p lo g : Nat) : Bool :=
  (oport s p).probes.any fun x => decide (x.1 ≤ g) && (x.2.all fun h => decide (lo < h)) &&
    !(decide (lo < x.1) && x.2.any fun h => decide (h ≤ g))

/-- Whether a running port has strings lit and none that a drive interval of 2 µs judges (R105): every lit colour of a CONT port below 2 µs with
probes off, or every pulse of the last second shorter than 13 ticks. -/
def blindNow (s : State) (p : Nat) : Bool :=
  if get s (OPTP.PCFG_PM p) = 2 then
    let l := (oport s p).lits.filter fun x => x.hi.any fun h => decide (nowTicks s < h + 6144000)
    !l.isEmpty && l.all fun x => x.hi.any fun h => decide (h + 1 < x.lo + 13)
  else !flag s OPT.PRB_EN && shortLit s p

/-- DIAG_BLIND (R105): a running lit port without a drive interval of 2 µs for 1 s; a unit that does not drive judges none (R108). -/
def execDiagBlind (p : Nat) (s : State) : Host.Outcome State Fault Refusal :=
  if 16 ≤ p then .fault .noSuchUnit
  else if get s (OPTP.PST_STATE p) = stRUN ∧ roleDrives s ∧ !flag s (OPTP.PST_BLIND p) ∧ blindNow s p then
    .next (raise (putB s (OPTP.PST_BLIND p) true) pOPT 12)
  else .next s

/-- BLIND_TIMEOUT (R105): raised once for one blindness; suspended on a unit that does not drive (R108). -/
def execBlindTimeout (p : Nat) (s : State) : Host.Outcome State Fault Refusal :=
  if 16 ≤ p then .fault .noSuchUnit
  else if flag s (OPTP.PST_BLIND p) ∧ !(oport s p).blindRaised ∧ roleDrives s then
    .next (raise (setOport s p { oport s p with blindRaised := true }) pOPT 13)
  else .next s

/-- The strings of a port that a pulse of the colours `col` lights: in PULSE mode and RUN, those with emitters and a code (R58, R100). -/
def pulseMask (s : State) (p col : Nat) : Nat :=
  if get s (OPTP.PCFG_PM p) = 2 ∧ get s (OPTP.PST_STATE p) = stRUN then
    (if bit col 0 && emitters s p false != 0 && effCode s p false != 0 then 1 else 0) +
      (if bit col 1 && emitters s p true != 0 && effCode s p true != 0 then 2 else 0)
  else 0

/-- An optical pulse of width `w` ticks at tick `t` (R58, R100): the ports named light their colours at the currents of their codes; the stretch
is kept for every OBK output period it touches, on a standby with shared optics as the partner's (R108); a pulse of 13 ticks or more ends
blindness. -/
def firePulse (s : State) (ports col w t : Nat) : State :=
  forEach (bitsOf ports 16) (fun s p =>
    let m := pulseMask s p col
    let drives : Bool := roleDrives s && s.boostUp
    if m = 0 ∨ w = 0 ∨ !(drives || (role s = rSTANDBY && get s OPT.OSHR_SHR = 1)) then s
    else
      let o := oport s p
      let l := o.lits.filter fun x => x.hi.all fun h => decide (keepFrom s ≤ h)
      let s1 := setOport s p { o with lits := ⟨m, t, some (t + w - 1)⟩ :: l
                                      drove := if drives then o.judged m (13 ≤ w) else o.drove }
      if !drives then s1
      else
        let s2 := showLim ([false, true].foldl (fun s colB =>
          if bit m colB.toNat then emit s (.optPulse p (1 + colB.toNat) w (driveCurrent s p colB)) else s) s1) p
        if 13 ≤ w then putB (setOport s2 p { oport s2 p with blindRaised := false }) (OPTP.PST_BLIND p) false else s2) s

/-- A lit output of a port's channel counts towards its dark conditions (R102): in periods with only A, only B, or both lit, and their monitors
in regulation. A period whose slot carries SUP, or whose monitors are not in regulation, is passed over: it neither counts nor ends a run
(DESIGN CHOICE, log entry 122). -/
def darkCount (s : State) (p lo g : Nat) (sup : Bool) (code : Int) : State :=
  let o := oport s p
  let m := litIn s p lo g
  let reg (colB : Bool) : Bool := role s = rSTANDBY || (regulates s p colB && !deviates s p colB) ||
    (get s (OPTP.PCFG_PM p) = 2 && !flag s (mdevFld p colB))
  let dim : Bool := decide (code.natAbs < get s OPT.DARKTH_TH)
  let next (l : List Nat) : List Nat := if dim then (g :: l).take 8 else []
  let any := if dim then ((g, m) :: o.darkAB).take 8 else []
  if sup ∨ get s (OPTP.PST_STATE p) ≠ stRUN then s
  else if m = 1 ∧ reg false then setOport s p { o with darkA := next o.darkA, darkAB := any }
  else if m = 2 ∧ reg true then setOport s p { o with darkB := next o.darkB, darkAB := any }
  else if m = 3 ∧ reg false ∧ reg true then setOport s p { o with darkAB := any }
  else s

/-! ### Port commands and page OPT under a write (R98, R100, R101, R106, R110, R111) -/

/-- Whether another port of the group is in FAULT with a cause other than GROUP. -/
def groupOwnFault (s : State) (p : Nat) : Bool :=
  let g := get s (OPTP.PCFG_FGRP p)
  g != 0 && (List.range 16).any fun r => r != p && get s (OPTP.PCFG_FGRP r) = g && get s (OPTP.PST_STATE r) = stFAULT &&
    get s (OPTP.PST_CAUSE r) != 8

/-- Whether a CLEAR of a port starts it at once: in FAULT, in a mode, under a seal (R106). -/
def clearStarts (s : State) (p : Nat) : Bool :=
  get s (OPTP.PST_STATE p) = stFAULT && get s (OPTP.PCFG_PM p) != 0 && pstate s pOPT = stSEALED

/-- The ports an OCMD starts: the one START names, and under a seal those that CLEAR and GCLEAR clear. -/
def ocmdStarts (s : State) (w : Word) : List Nat :=
  let p := wbits w 11 8
  match wbits w 3 0 with
  | 1 => [p]
  | 3 => if clearStarts s p then [p] else []
  | 4 => (List.range 16).filter fun r => get s (OPTP.PCFG_FGRP r) = p && clearStarts s r
  | _ => []

/-- The reasons an OCMD is rejected (R101, R106, R110); what it starts is judged on the image for load and duty (R98, R101). -/
def violOcmd (s img : State) (off : Nat) (w : Word) : List Viol :=
  let op := wbits w 3 0
  let p := wbits w 11 8
  let st := get s (OPTP.PST_STATE p)
  let sealedP := pstate s pOPT = stSEALED
  let l := ocmdStarts s w
  let run := forEach l (fun t p => put t (OPTP.PST_STATE p) stRUN) img
  let load := viol (!l.isEmpty && decide (opLoadRaw run > opLoadRaw s) && opOver run) .range off ++
    viol (l.any (dutyCont run) && !obkPwmOk img) .range off
  if op = 0 then []
  else if 4 < op then [(.range, off)]
  else if op = 1 then load ++ viol sealedP .locked off ++ viol (st != stIDLE || !producing s 48) .state off
  else if op = 2 then viol sealedP .locked off ++ viol (st != stRUN) .state off
  else if op = 3 then load ++ viol (st != stFAULT || groupOwnFault s p) .state off
  else load ++ viol (p = 0 || decide (7 < p)) .range off

/-- A cleared port: IDLE without cause; under a seal it starts at once (R106). A port whose mode was written 0 while it was in FAULT is OFF
(R100; DESIGN CHOICE, log entry 122: R106 gives IDLE for every cleared port and OFF for IDLE with PM 0). -/
def portClear (s : State) (p : Nat) : State :=
  if get s (OPTP.PST_STATE p) = stFAULT then
    let s1 := puts s [(OPTP.PST_STATE p, if get s (OPTP.PCFG_PM p) = 0 then stOFF else stIDLE), (OPTP.PST_CAUSE p, 0)]
    if clearStarts s p then portStart s1 p else s1
  else s

/-- The effect of an accepted OCMD (R106). -/
def effOcmd (s : State) (w : Word) : State :=
  let p := wbits w 11 8
  match wbits w 3 0 with
  | 1 => portStart s p
  | 2 => portOff s p stIDLE
  | 3 => portClear s p
  | 4 => forEach ((List.range 16).filter fun r => get s (OPTP.PCFG_FGRP r) = p) portClear s
  | _ => s

/-- A duty-band code (R97). -/
def dutyBand (x : Nat) : Bool := decide (1 ≤ x) && decide (x ≤ 134)

/-- The reasons a word of page OPT other than the OBK registers is rejected beyond the fields' own legal sets. -/
def violOPT (s img : State) (off : Nat) (w : Word) : List Viol :=
  if off = 0x40 then violOcmd s img off w
  else if 0x100 ≤ off ∧ off < 0x300 then
    let p := (off - 0x100) / 32
    let r := off % 32
    let pm := get img (OPTP.PCFG_PM p)
    let codes := dutyBand (get img (OPTP.PSET_SA p)) || dutyBand (get img (OPTP.PSET_SB p))
    let cfgChg := chg s img (OPTP.PCFG_PM p) || chg s img (OPTP.PCFG_COL p) || chg s img (OPTP.PCFG_FGRP p) ||
      chg s img (OPTP.PCFG_NEMA p) || chg s img (OPTP.PCFG_NEMB p)
    let g := get img (OPTP.PCFG_FGRP p)
    if r = 0 ∨ r = 4 then
      viol (pm = 1 && r = 0 && get img (OPTP.PCFG_COL p) = 0) .range off ++
      viol (pm = 2 && codes) .range off ++
      viol (dutyCont img p && !obkPwmOk img) .range off ++
      viol (decide (opLoadRaw img > opLoadRaw s) && opOver img) .range off ++
      viol (r = 0 && cfgChg && get s (OPTP.PST_STATE p) = stRUN) .state off ++
      viol (r = 0 && chg s img (OPTP.PCFG_FGRP p) && g != 0 && (List.range 16).any fun q =>
        q != p && get s (OPTP.PCFG_FGRP q) = g && get s (OPTP.PST_STATE q) = stFAULT) .state off
    else []
  else []

/-- What a committed burst on page OPT does to the ports: PM leaves or enters OFF (R106). -/
def afterOPT (old s : State) : State :=
  forEach (List.range 16) (fun s p =>
    if chg old s (OPTP.PCFG_PM p) then
      if get s (OPTP.PST_STATE p) = stOFF ∧ get s (OPTP.PCFG_PM p) ≠ 0 then put s (OPTP.PST_STATE p) stIDLE
      else if get s (OPTP.PST_STATE p) = stIDLE ∧ get s (OPTP.PCFG_PM p) = 0 then put s (OPTP.PST_STATE p) stOFF
      else s
    else s) s

end Sys2Proof.Machine
end

