-- ==== Sys2Proof/Machine/Lin.lean ====
section
/-! DEFINITION. Linearisation: engineering items (R149–R153), the sets and their flash copy (R155–R158), and page LIN. -/

namespace Sys2Proof.Machine

/-! ### The set of a channel (R157) -/

/-- A stored word as binary32. -/
def coefWord (s : State) (ch k : Nat) : Word := wd (get s (LIN.COEF_C k ch))

/-- c_ij of a channel's set, k = 4i + j. -/
def coefXF (s : State) (ch i j : Nat) : XF := XF.ofF32 (coefWord s ch (4 * i + j))

/-- Whether a channel is linearised. -/
def lenOf (s : State) (ch : Nat) : Bool := flag s (LIN.LCFG_LEN ch)

/-! ### The operand T (R150) -/

/-- What a channel's T is: a number, or none and why. -/
inductive TVal where
  | num (t : XF)
  | stale
  | none
  deriving DecidableEq, Repr

/-- The latest valid item of TCH that is not later than grid instant g; those listed have emerged. -/
def tchItem (s : State) (tch g : Nat) : Option (Nat × Word) := (chan s tch).items.find? fun e => decide (e.1 ≤ g)

/-- T of a channel for its slot at g. A fresh valid item ends staleness; while none is available the last one is used. -/
def tOf (s : State) (ch g : Nat) : State × TVal :=
  match get s (LIN.LCFG_TSRC ch) with
  | 0 =>
    let m := l0Of s ch (slice s ch)
    (s, .num (XF.div (tget s.dieT (get s (MGT.CTR_DIE m)) 0) 100))
  | 1 =>
    match tchItem s (get s (LIN.LCFG_TCH ch)) g with
    | none => (s, if flag s (LIN.LSTAT_TSTALE ch) then .stale else .none)
    | some it =>
      if flag s (LIN.LSTAT_TSTALE ch) ∧ (chan s ch).heldT = some it then (s, .stale)
      else
        let s1 := putB s (LIN.LSTAT_TSTALE ch) false
        (setChan s1 ch { chan s1 ch with heldT := some it }, .num (XF.ofF32 it.2))
  | _ => (s, .num (XF.ofF32 (wd (get s (LIN.TFIX_T ch)))))

/-! ### The ratio stage (R153) -/

/-- How many path M output periods of OBK before the one that ends at `g` a kept period lies: ticks apart, or in mains-window mode turns of
the axis apart (R142), to the nearest whole period. -/
def ratioAge (s : State) (x : RatioPt) (g : Nat) : Nat :=
  if mwin s 48 then roundUpHalf (mainsAt16 s (tickTime g) - x.pos) (get s (BNK.FRESP_MWN 48) * 2 ^ 32) else (g - x.g) / periodTicks s 48

/-- The ratio's x, if every condition holds: `some none` where b is 0 with DARKTH 0, a quotient the spec does not state. -/
def ratioX (s : State) (ch g : Nat) : Option (Option XF) :=
  let c := chan s ch
  let reach := get s (LIN.LCFG_RAGE ch)
  match c.ratA, c.ratB with
  | some a, some b =>
    if ratioAge s a g < reach ∧ ratioAge s b g < reach ∧ get s OPT.DARKTH_TH ≤ b.code.natAbs then
      some (if b.code = 0 then none else
        let q := XF.div a.code b.code
        some ⟨q.neg, q.m, q.e - get s (LIN.LCFG_RSCL ch)⟩)
    else none
  | _, _ => none

/-! ### Items (R149–R152) -/

/-- An item that is not evaluated: SUP. -/
def itemSup (t : Tags) : Val := ⟨0#32, sampleWord { t with sup := true } 0⟩

/-- Keep a valid item for the channels that use this one as their T (R150). -/
def keepItem (s : State) (ch g : Nat) (t : Tags) (v : Word) : State :=
  if !t.ovr ∧ !t.opn ∧ !t.sup ∧ !t.bds ∧ !t.psn ∧ f32Finite v then
    setChan s ch { chan s ch with items := (g, v) :: (chan s ch).items }
  else s

/-- The item of a value: an overflow gives OVR and raises LOVF (R151); LSTAT.OVF follows. -/
def finishItem (s : State) (ch g : Nat) (t : Tags) (code : Int) (v : Word × Bool) : State × Val :=
  let s1 := putB s (LIN.LSTAT_OVF ch) v.2
  let s2 := if v.2 then raise s1 pLIN 11 else s1
  let t1 := if v.2 then { t with ovr := true } else t
  (keepItem s2 ch g t1 v.1, ⟨v.1, sampleWord t code⟩)

/-- The raw code field of an item whose value overflowed keeps the code; only its tag gains OVR (R151, R152). -/
def itemTag (v : Val) (ovr : Bool) : Val := if ovr then { v with word := v.word ||| 0x40#32 } else v

/-- The last item of a channel has not overflowed (LSTAT.OVF, R157). -/
def noOvf (s : State) (ch : Nat) : State := putB s (LIN.LSTAT_OVF ch) false

/-- An item with the quiet NaN. -/
def nanItem (s : State) (ch : Nat) (t : Tags) (code : Int) : State × Val := (noOvf s ch, ⟨quietNaN, sampleWord t code⟩)

/-- An item whose value the spec does not state: a free value. -/
def freeItem (s : State) (ch : Nat) (t : Tags) (code : Int) : State × Val :=
  let d := draw (noOvf s ch)
  (d.2, ⟨Config.freeWord d.1, sampleWord t code⟩)

/-- Evaluate a channel's item at x. -/
def evalAt (s : State) (ch g : Nat) (t : Tags) (code : Int) (x : XF) : State × Val :=
  match tOf s ch g with
  | (s1, .stale) => nanItem s1 ch t code
  | (s1, .none) => freeItem s1 ch t code
  | (s1, .num tv) =>
    let v := (evalPoly (coefXF s1 ch) x tv).toF32
    let r := finishItem s1 ch g t code v
    (r.1, itemTag r.2 v.2)

/-- The engineering item of a linearised channel's output (R149–R153): suppressed under SUP or while LIN is in FAULT (R156). -/
def evalItem (s : State) (ch g : Nat) (t : Tags) (code : Int) : State × Val :=
  if t.sup ∨ pstate s pLIN = stFAULT then (noOvf s ch, itemSup t)
  else if flag s (LIN.LCFG_RAT ch) then
    match ratioX s ch g with
    | none => nanItem (raise (putB s (LIN.LSTAT_RATINV ch) true) pLIN 9) ch t code
    | some none => freeItem (putB s (LIN.LSTAT_RATINV ch) false) ch t code
    | some (some x) => evalAt (putB s (LIN.LSTAT_RATINV ch) false) ch g t code x
  else evalAt s ch g t code (XF.ofInt (slotData t code) (-23))

/-- TSTALE (R150): no valid temperature for THOLD ms. -/
def execTstale (ch : Nat) (s : State) : Host.Outcome State Fault Refusal :=
  if 784 ≤ ch then .fault .noSuchUnit
  else if lenOf s ch ∧ get s (LIN.LCFG_TSRC ch) = 1 then .next (raise (putB s (LIN.LSTAT_TSTALE ch) true) pLIN 8)
  else .next s

/-- EVAL_TEST (R156): a test vector runs through each evaluator; a mismatch moves LIN to FAULT and raises EVALERR. -/
def execEvalTest (good : Bool) (s : State) : Host.Outcome State Fault Refusal :=
  if good ∨ pstate s pLIN = stOFF then .next s else .next (setPState (raise s pLIN 10) pLIN stFAULT)

/-- ROM_CHECK (R147). -/
def execRomCheck (good : Bool) (s : State) : Host.Outcome State Fault Refusal := .next (refreshLin (romCheck s good))

/-! ### Page LIN under a write (R153, R155–R158, R177) -/

/-- Whether a channel belongs to a bank that is sealed or being sealed (R158). -/
def chSealed (s : State) (ch : Nat) : Bool := bstate s (bankOfCh ch) = stSEALED || (sealLocks s && designated s (bankOfCh ch))

/-- Whether a context on path M that is ARMED, RUN, DRAIN or HOLD has the channel (R177). -/
def lenFixed (s : State) (ch : Nat) : Bool :=
  (List.range 64).any fun c => decide (2 ≤ cstate s c) && get s (STM.CCFG_PATH c) = 0 && ctxHas s c ch

/-- The offsets of a channel's set: LCFG, TFIX and COEF. -/
def isSetOff (off : Nat) : Bool := decide (0x44 ≤ off) && decide (off ≤ 0xA8)

/-- The reasons a word of page LIN is rejected beyond the fields' own legal sets. -/
def violLIN (s img : State) (off : Nat) (w : Word) : List Viol :=
  let ch := get img LIN.LSEL_CH
  let tch := get img (LIN.LCFG_TCH ch)
  if isSetOff off then
    let changed := if off = 0x44 then
        chg s img (LIN.LCFG_LEN ch) || chg s img (LIN.LCFG_RAT ch) || chg s img (LIN.LCFG_TSRC ch) || chg s img (LIN.LCFG_RSCL ch) ||
          chg s img (LIN.LCFG_RAGE ch) || chg s img (LIN.LCFG_TCH ch)
      else if off = 0x48 then chg s img (LIN.TFIX_T ch)
      else chg s img (LIN.COEF_C ((off - 0x4C) / 4) ch)
    let free1 := !lenOf img ch || get img (LIN.LCFG_TSRC ch) = 1
    viol (changed && chSealed s ch) .locked off ++
    viol (changed && flag s (hBUSY pLIN)) .busy off ++
    (if off = 0x44 then
      viol (flag img (LIN.LCFG_RAT ch) && (decide (ch < 768) || get img (LIN.LCFG_RAGE ch) = 0)) .range off ++
      viol (lenOf img ch && get img (LIN.LCFG_TSRC ch) = 1 &&
        (decide (783 < tch) || tch = ch || !lenOf img tch || get img (LIN.LCFG_TSRC tch) = 1)) .range off ++
      viol (changed && free1 && (List.range 784).any (fun d =>
        d != ch && lenOf img d && get img (LIN.LCFG_TSRC d) = 1 && get img (LIN.LCFG_TCH d) = ch)) .range off ++
      viol (chg s img (LIN.LCFG_LEN ch) && lenFixed s ch) .state off
    else [])
  else if off = 0xC0 then
    let op := wbits w 3 0
    if op = 0 then []
    else if 3 < op then [(.range, off)]
    else viol (op = 3 && chSealed s ch) .locked off ++ viol (flag s (hBUSY pLIN)) .busy off
  else []

/-- Whether an entry of the register file is a field of a channel's set. -/
def isSetCode (code : Nat) : Bool := codePage code = pLIN && isSetOff (codeOff code)

/-- The channel an entry of a set belongs to. -/
def setCodeCh (code : Nat) : Nat := code / 32 % 16384

/-- The flash operation SAVE has ended (R157, R158): the sets of unsealed banks are kept; sealed banks' saved sets stand. -/
def linSaved (s : State) : List (Nat × Nat) :=
  (s.regs.filter fun e => isSetCode e.1 && !chSealed s (setCodeCh e.1)) ++
    s.flash.lin.filter fun e => chSealed s (setCodeCh e.1)

/-- A T that no longer comes from a channel is not stale (R157). -/
def dropStale (s : State) : State :=
  forEach ((List.range 784).filter fun ch => flag s (LIN.LSTAT_TSTALE ch) && get s (LIN.LCFG_TSRC ch) != 1)
    (fun s ch => putB s (LIN.LSTAT_TSTALE ch) false) s

/-- LOAD: the saved sets replace those of unsealed banks. -/
def linLoad (s : State) : State :=
  let kept := s.regs.filter fun e => !isSetCode e.1 || chSealed s (setCodeCh e.1)
  let add := s.flash.lin.filter fun e => isSetCode e.1 && !chSealed s (setCodeCh e.1)
  refreshLin (dropStale { s with regs := add.foldl (fun t e => tins e.1 e.2 (terase e.1 t)) kept })

/-- DEFAULT: every coefficient of a channel's set to identity (R157). -/
def linDefault (s : State) (ch : Nat) : State := forEach (List.range 24) (fun s k => put s (LIN.COEF_C k ch) (coefRst k)) s

/-- The effect of an accepted LCMD. -/
def effLcmd (s : State) (w : Word) : State :=
  match wbits w 3 0 with
  | 1 => progStart { setBusy s pLIN true with pwr := { s.pwr with linOp := 1 } } pLIN 784
  | 2 => progStart { setBusy s pLIN true with pwr := { s.pwr with linOp := 2 } } pLIN 784
  | 3 => linDefault s (get s LIN.LSEL_CH)
  | _ => s

/-- A write of TESTT evaluates the set shown at TESTX and TESTT (R157); an overflow gives the infinity and raises LOVF. -/
def testEval (s : State) : State :=
  let ch := get s LIN.LSEL_CH
  let v := (evalPoly (coefXF s ch) (XF.ofF32 (wd (get s LIN.TESTX_X))) (XF.ofF32 (wd (get s LIN.TESTT_T)))).toF32
  let s1 := put s LIN.TESTY_Y v.1.toNat
  if v.2 then raise s1 pLIN 11 else s1

/-- What the computed registers of page LIN read: LLOAD in 0.1 % of 983.04 M steps/s (R154) and LNCH. -/
def viewLIN (s : State) (off : Nat) : Option Nat :=
  if off = 0xB8 then
    let chs := (List.range 784).filter fun ch => lenOf s ch && producing s (bankOfCh ch)
    some ((chs.map fun ch => 23 * (6144000 / outTicks s (bankOfCh ch))).sum * 1000 / 983040000)
  else if off = 0xBC then some (lenCount s)
  else none

/-- What a committed burst on page LIN does beyond its fields: LIN follows the first and the last linearised channel (R156), and a T that no
longer comes from a channel is not stale (R157). -/
def afterLIN (s : State) : State := refreshLin (dropStale s)

/-- LCMD_SAVE_DONE (R158). -/
def execLcmdSaveDone (s : State) : Host.Outcome State Fault Refusal :=
  if s.pwr.linOp = 1 then
    .next (progDone (setBusy { s with pwr := { s.pwr with linOp := 0 }, flash := { s.flash with lin := linSaved s } } pLIN false) pLIN)
  else .next s

/-- LCMD_LOAD_DONE (R158). Sets of designated banks that the load changes while MTR is IDLE and EVS = 1 are no counted parameter change:
R166 counts committed bursts, and the load's end is none (DESIGN CHOICE, log entry 123). -/
def execLcmdLoadDone (s : State) : Host.Outcome State Fault Refusal :=
  if s.pwr.linOp = 2 then
    .next (progDone (setBusy (linLoad { s with pwr := { s.pwr with linOp := 0 } }) pLIN false) pLIN)
  else .next s

end Sys2Proof.Machine
end

