-- ==== Sys2Proof/Machine/Stm.lean ====
section
/-! DEFINITION. The stream assembler: the tags and values of outputs (R138, R140, R173), slots and blocks of contexts
(R175–R183, R192), the pre-trigger ring (R250), and page STM (R193, R194). -/

namespace Sys2Proof.Machine

/-! ### The tags of an output (R7, R173) -/

/-- Whether an OBK channel's slots are suppressed by its port: IDLE after STOP (R106), dark until its strings light (R96, R144), or a standby
without shared optics (R108). -/
def portSup (s : State) (p : Nat) : Bool :=
  get s (OPTP.PST_STATE p) = stIDLE || (oport s p).dark || (role s = rSTANDBY && get s OPT.OSHR_SHR = 0)

/-- Whether a routing sequence of the channel runs, whose make step restarts its settle (R77). -/
def routeRuns (s : State) (ch : Nat) : Bool :=
  match (bank s (bankOfCh ch)).route with
  | some r => bit r.mask (ch % 16)
  | none => false

/-- Whether a channel's output is suppressed whatever its settle: its bank does not sample or its MODE is OFF (R75, R175), its
routing runs (R77), its group changes mode (R117), FLT is in FAULT or OFF (R147), or no mains period is measured (R142). -/
def blockedOutput (s : State) (ch : Nat) : Bool :=
  let n := bankOfCh ch
  !producing s n || chMode s ch = 0 || routeRuns s ch || ecoChanging s n || pstate s pFLT = stFAULT || pstate s pFLT = stOFF ||
    (mwin s n && get s AXS.MPER_PER = 0) ||
    (decide (768 ≤ ch) && portSup s (ch - 768))

/-- Whether the channel carries OPN at tick `g`: an open leg (R86), or an open quad or faulted port from its instant on. -/
def opnAt (s : State) (ch g : Nat) : Bool :=
  bit (bank s (bankOfCh ch)).legs (ch % 16) ||
    (match (chan s ch).opnFrom with
      | some t => decide (t ≤ g)
      | none => false)

/-- Whether the channel carries BDS: the bank's clamp (R89), its quad's limiter (R84), or the optical limiter (R101). -/
def bdsNow (s : State) (ch : Nat) : Bool :=
  let b := bank s (bankOfCh ch)
  b.clamp || bit b.ilimTail (ch % 16 / 4) || (decide (768 ≤ ch) && (flag s (OPTP.PST_LIM (ch - 768)) || (oport s (ch - 768)).tail))

/-- Whether the channel carries CAL in an output of path `path` for the ticks after `lo` up to `g`: test injection (R90), substitution once
the spare has settled (R127), rotation (R128), or a period that holds a probe pulse or its compensation (R104). -/
def calNow (s : State) (path ch lo g : Nat) (settling : Bool) : Bool :=
  let n := bankOfCh ch
  (bstate s n = stTEST && bit (get s (BNK.TINJ_MASK n)) (ch % 16)) ||
    (substituted s ch && (!(settling || routeRuns s ch) || bit (bank s n).subCal path)) || rotated s ch ||
    (decide (768 ≤ ch) && probeIn s (ch - 768) lo g)

/-- Whether the channel over-ranged within the ticks after `lo` up to `g` (R88). -/
def ovrIn (s : State) (ch lo g : Nat) : Bool :=
  (match (chan s ch).ovrOn with
    | some t => decide (t ≤ g)
    | none => false) || (chan s ch).ovrPast.any fun x => decide (x.1 ≤ g) && decide (lo < x.2)

/-- The tick at which the output period of a path M slot of tick `g` begins. -/
def periodFrom (s : State) (ch g : Nat) : Nat :=
  g - (if mwin s (bankOfCh ch) then (chan s ch).mwW else periodTicks s (bankOfCh ch))

/-- Whether a slot of tick `g` carries TKO (R332): formed in STANDBY, YIELD, ISOLATED or TAKEOVER, or not later than the instant a
takeover was complete. -/
def tkoAt (s : State) (g : Nat) : Bool :=
  role s = rSTANDBY || role s = rYIELD || role s = rISOLATED || role s = rTAKEOVER ||
    (role s = rACTIVE && (match s.twl.tkoT with
      | some t => decide (g * (15625 * 65536) ≤ t * 96)
      | none => false))

/-- The tags of a channel's output of path `path` for the period after tick `lo` up to tick `g`, given whether its settle still runs. -/
def outTags (s : State) (path ch lo g : Nat) (settling : Bool) : Tags :=
  { ovr := ovrIn s ch lo g
    opn := opnAt s ch g
    sup := blockedOutput s ch || settling
    tko := tkoAt s g
    bds := bdsNow s ch
    cal := calNow s path ch lo g settling }

/-- Whether path M's settle covers grid instant `g` (R143): it is not later than the end, or the end is still awaited in mains-window mode. -/
def settlingM (s : State) (ch g : Nat) : Bool :=
  let c := chan s ch
  decide (0 < c.mwLeft) || (match c.endM with
    | some e => decide (g ≤ e)
    | none => false)

/-- Whether path E's settle covers sample `n`. -/
def settlingE (s : State) (ch n : Nat) : Bool :=
  match (chan s ch).endE with
  | some e => decide (n ≤ e)
  | none => false

/-- A corrected output and its tags: a clamp by R123 sets OVR too. -/
def outCode (s : State) (path ch lo g : Nat) (settling : Bool) (xr : Int) : Tags × Int :=
  let c := correctCh s ch xr
  let t := outTags s path ch lo g settling
  ({ t with ovr := t.ovr || c.clamped }, c.v)

/-! ### Times in words (R181) -/

/-- A time in 2^-16 ns laid out as W2–W4, with the flags FRN and ISL. -/
def timeWords (t : Nat) (frn isl : Bool) : List Word :=
  let sec := t / sec16 % 2 ^ 48
  let ns := t % sec16 / 65536
  [wd (sec / 65536), wd (sec % 65536 * 65536 + frn.toNat * 32768 + isl.toNat * 16384 + ns / 65536),
   wd (ns % 65536 * 65536 + t % 65536)]

/-- The time in words W2–W4. -/
def timeOfWords (w2 w3 w4 : Word) : Nat :=
  (w2.toNat * 65536 + wbits w3 31 16) * sec16 + (wbits w3 13 0 * 65536 + wbits w4 31 16) * 65536 + wbits w4 15 0

/-! ### Context states (R192, R193) -/

/-- A page that is IDLE or RUN follows its work. -/
def follow (page : Nat) (busy : State → Bool) (s : State) : State :=
  if pstate s page = stIDLE ∧ busy s then setPState s page stRUN
  else if pstate s page = stRUN ∧ !busy s then setPState s page stIDLE
  else s

/-- Whether a context in ARMED, RUN, DRAIN or HOLD satisfies `p`. -/
def anyCtx (s : State) (p : Nat → Bool) : Bool := (List.range 64).any fun c => decide (2 ≤ cstate s c) && p c

/-- STM, QUE, CDC and CNV are in RUN while contexts are armed or running or they hold work, and IDLE otherwise (R193, R212, R238,
R255). -/
def refreshStream (s : State) : State :=
  follow pCNV (fun s => anyCtx s (fun _ => true) || !s.cnv.blocks.isEmpty)
    (follow pCDC (fun s => anyCtx s (fun c => flag s (STM.CCFG_AFX c)) ||
        (List.range 16).any fun j => get s (CDC.DSTAT_STATE j) != 0)
      (follow pQUE (fun s => anyCtx s (fun _ => true) || s.queues.any fun e => !e.2.items.isEmpty)
        (follow pSTM (fun s => anyCtx s fun _ => true) s)))

/-- A context's CHK window opens for `n` data blocks; `n` 0 opens none (R226). -/
def Ctx.openChk (x : Ctx) (n : Nat) : Ctx := if n = 0 then x else { x with chk := n }

/-- A context's history is emptied, and its next 0xA2 block resets (R224). The adaptation state stays (R222). -/
def Ctx.emptied (x : Ctx) : Ctx :=
  { x with restart := true, comp := 0, hist := x.hist.foldl (fun t p => tset t p.1 p.2.clear {}) [] }

/-- A context that enters RUN opens its CHK window (R226); where it comes from ARMED its history is emptied (R224) and its codec state is
for its present channels. -/
def enterRun (s : State) (c old : Nat) : State :=
  let x := (ctx s c).openChk (get s CDC.CHKN_N)
  setCtx s c (if old = stHOLD then x else { x.emptied with nch := get s (STM.CSTAT_NCH c) })

/-- A context changes state: CSTCHG. -/
def setCState (s : State) (c v : Nat) : State :=
  if cstate s c = v then s
  else
    let s1 := if v = stRUN then enterRun s c (cstate s c) else s
    refreshStream (raise (put s1 (STM.CSTAT_STATE c) v) pSTM 8)

/-- Whether a context is RUN or HOLD. -/
def ctxActive (s : State) (c : Nat) : Bool := cstate s c = stRUN || cstate s c = stHOLD

/-- Whether a context is a METRO context (MCTXLO, MCTXHI; bit 0 is reserved). -/
def isMctx (s : State) (c : Nat) : Bool :=
  if c < 32 then bit (2 * get s MTR.MCTXLO_CTX) c else bit (get s MTR.MCTXHI_CTX) (c - 32)

/-! ### Slots and blocks (R175–R183) -/

/-- Payload words per slot: two a channel for engineering contexts (R178). -/
def slotWords (s : State) (c : Nat) : Nat := get s (STM.CSTAT_NCH c) * (if flag s (STM.CSTAT_KIND c) then 2 else 1)

/-- Close the current block (R179); an empty one closes nothing. -/
def closeBlock (s : State) (c : Nat) (last : Bool) : State :=
  let x := ctx s c
  if x.cur.isEmpty then s
  else setCtx s c { x with cur := [], closed := x.closed ++
      [{ slots := x.cur, w5 := x.w5, last := last, eng := flag s (STM.CSTAT_KIND c) }] }

/-- A boundary command that was pending takes effect at this slot boundary (R179, R192). -/
def boundary (s : State) (c : Nat) : State :=
  let x := ctx s c
  match x.cmd with
  | 0 => s
  | k =>
    let s1 := closeBlock (setCtx s c { x with cmd := 0 }) c false
    if k = 1 ∧ cstate s c = stRUN then setCState s1 c stHOLD
    else if k = 2 ∧ cstate s c = stHOLD then setCState s1 c stRUN
    else s1

/-- The time of slot `k` of a block by W5, in 2^-16 ns, rounded to nearest (R183): W5 holds whole ns and thirds. -/
def slotTimeBy (t0 w5 k : Nat) : Nat := t0 + roundUpHalf (k * (w5 / 4 * 3 + w5 % 4) * 65536) 3

/-- Whether a slot does not fit the current block: its flags or period differ, it is the first later than a takeover (R332), it does not follow in time, or an irregular block
would pass 2,048 words (R179, R183). -/
def needsNewBlock (s : State) (c : Nat) (t w5 : Nat) (frn isl : Bool) : Bool :=
  let x := ctx s c
  match x.cur with
  | [] => false
  | first :: _ =>
    let n := x.cur.length
    let edge : Bool := match s.twl.tkoT with
      | some e => decide ((x.cur.getLast?.map (·.t)).getD 0 ≤ e) && decide (e < t)
      | none => false
    edge || first.frn != frn || first.isl != isl || x.w5 != w5 ||
      (w5 != 0 && decide (slotTimeBy first.t w5 n + 1 < t ∨ t + 1 < slotTimeBy first.t w5 n)) ||
      (w5 = 0 && decide (8 + 3 * (n + 1) + slotWords s c * (n + 1) > 2048))

/-- Slots counted in a context's CSLHI and CSLLO. -/
def countSlots (s : State) (c n : Nat) : State :=
  let k := get s (STM.CSLHI_N c) * 2 ^ 32 + get s (STM.CSLLO_N c) + n
  puts s [(STM.CSLLO_N c, k % 2 ^ 32), (STM.CSLHI_N c, k / 2 ^ 32)]

/-- Whether finished slots have nowhere to go: STM or QUE is in FAULT (R193, R211). -/
def streamDown (s : State) : Bool := pstate s pSTM = stFAULT || pstate s pQUE = stFAULT

/-- A gap record of a context whose extent is still open, with the channel count and path of its data blocks (R182). -/
def gapFor (s : State) (c reason t w5 : Nat) : GapRec :=
  { reason := reason, t := t, w5 := w5, tlast := t, chans := get s (STM.CSTAT_NCH c), path := get s (STM.CCFG_PATH c) }

/-- Whether the schedule's points of a context give slots: it is in RUN or HOLD, or a STM or QUE fault has closed it and its gap counts
them (R193, R211). -/
def ctxOwes (s : State) (c : Nat) : Bool := ctxActive s c || (ctx s c).stopped.any fun g => g.reason = 5

/-- Open one slot of a context (R175): the boundary's causes close the current block, the slot instant is counted, and a full block
closes. While STM or QUE is in FAULT no slot opens, and the gap of the fault counts it (R193, R211). -/
def openSlot (s : State) (c t g w5 : Nat) (vals : List (Nat × Option Val)) : State :=
  if streamDown s then
    let x := ctx s c
    let r := x.stopped.getD (gapFor s c 5 t w5)
    countSlots (setCtx s c { x with stopped := some { r with
      t := if r.slots = 0 then t else r.t, w5 := if r.slots = 0 then w5 else r.w5, slots := r.slots + 1, tlast := t } }) c 1
  else
    let frn := flag s TSU.TSTAT_FRN
    let isl := get s DOM.DROLE_AUTH = 3
    let s1 := boundary s c
    let s2 := if needsNewBlock s1 c t w5 frn isl then closeBlock s1 c false else s1
    let x := ctx s2 c
    let s3 := setCtx s2 c { x with cur := x.cur ++ [⟨t, g, frn, isl, vals⟩], w5 := w5 }
    let s4 := countSlots s3 c 1
    if (ctx s4 c).cur.length = get s4 (STM.CCFG_BSLOT c) then closeBlock s4 c false else s4

/-- The value of a channel whose output is certain to be suppressed when its slot opens (R175): SUP with data 0. -/
def supVal (s : State) (ch g : Nat) : Val :=
  ⟨0#32, sampleWord { outTags s 0 ch (periodFrom s ch g) g (settlingM s ch g) with sup := true } 0⟩

/-- The channels of a context at a slot's opening: those that yield nothing now are suppressed at once, the others have no value yet
(R175). -/
def openVals (s : State) (c g : Nat) : List (Nat × Option Val) :=
  (ctxChans s c).map fun ch => (ch, if blockedOutput s ch then some (supVal s ch g) else none)

/-- A slot with the value of a channel filled in, if it waits for one. -/
def Slot.fill (x : Slot) (ch : Nat) (v : Val) : Slot :=
  { x with vals := x.vals.map fun e => if e.1 = ch ∧ e.2 = none then (e.1, some v) else e }

/-- Whether every channel of a slot has its value. -/
def Slot.full (x : Slot) : Bool := x.vals.all fun e => e.2.isSome

/-- Fill the slots of a context that wait for channel `ch` at `g`. -/
def fillCtx (s : State) (c ch g : Nat) (v : Val) : State :=
  let x := ctx s c
  let f (l : List Slot) : List Slot := l.map fun z => if z.g = g then z.fill ch v else z
  setCtx s c { x with cur := f x.cur, closed := x.closed.map fun b => { b with slots := f b.slots } }

/-- Fill the slots of every context on a path that has the channel. -/
def fillAll (s : State) (path ch g : Nat) (v : Val) : State :=
  forEach ((List.range 64).filter fun c => get s (STM.CCFG_PATH c) = path && ctxHas s c ch && decide (2 ≤ cstate s c))
    (fun s c => fillCtx s c ch g v) s

/-- The value of an output in a sample word. -/
def wordVal (t : Tags) (code : Int) : Val := ⟨0#32, sampleWord t code⟩

/-- An OBK output's part in the ratio stage (R153): the latest period with only colour A, or only colour B, lit. -/
def latchRatio (s : State) (ch lo g : Nat) (t : Tags) (code : Int) : State :=
  if ch < 768 then s
  else
    let c := chan s ch
    let m := litIn s (ch - 768) lo g
    let ok := !t.ovr && !t.opn && !t.sup && !t.bds && !t.psn
    let v := if ok then some ⟨g, mainsAt16 s (tickTime g), code⟩ else none
    setChan s ch (if m = 1 then { c with ratA := v } else if m = 2 then { c with ratB := v } else c)

/-- Whether a slot of path M waits for the channel at `g`. -/
def slotWaits (s : State) (ch g : Nat) : Bool :=
  s.ctxs.any fun e => get s (STM.CCFG_PATH e.1) = 0 && (e.2.closed.flatMap (·.slots) ++ e.2.cur).any fun z =>
    z.g = g && z.vals.any fun v => v.1 = ch && v.2 = none

/-- Whether a slot counts in a summary (R334): no tag but V; a standby ignores its TKO, and so does an isolated unit, which compares like
one (R346). -/
def sumClean (s : State) (t : Tags) : Bool :=
  !t.ovr && !t.opn && !t.sup && !t.bds && !t.cal && !t.psn && (!t.tko || role s = rSTANDBY || role s = rISOLATED)

/-- A path M slot counts in the summary of its 10 ms interval (R334). -/
def sumSlot (s : State) (ch g : Nat) (t : Tags) (code : Int) : State :=
  if slotWaits s ch g ∧ sumClean s t then
    let k := g * 15625 / 960000000
    let c := chan s ch
    let p := tget c.sums k (0, 0)
    setChan s ch { c with sums := (k, p.1 + 1, p.2 + code) :: c.sums.filter fun e => e.1 != k }
  else s

/-- FLT raises MWNOMAINS once while a bank is in mains-window mode and no mains period is measured (R142). -/
def noMains (s : State) (n : Nat) : State :=
  if mwin s n ∧ get s AXS.MPER_PER = 0 ∧ !s.axs.mwRaised then
    raise { s with axs := { s.axs with mwRaised := true } } pFLT 9
  else s

/-- The substitute of a bank has settled on a path (R127): its slots carry CAL from now on. -/
def subSettled (s : State) (path ch : Nat) (settling : Bool) : State :=
  let b := bank s (bankOfCh ch)
  if substituted s ch ∧ !settling ∧ !routeRuns s ch ∧ !bit b.subCal path then setBank s (bankOfCh ch) { b with subCal := b.subCal ||| 2 ^ path } else s

/-- A settled or settling output of path M for grid instant `g` (R138): corrected, tagged, evaluated if linearised, and filled into
the slots that take it. -/
def outputM (s : State) (ch g : Nat) (xr : Int) : State :=
  let s0 := noMains s (bankOfCh ch)
  let lo := periodFrom s0 ch g
  let o := outCode s0 0 ch lo g (settlingM s0 ch g) xr
  let s1 := subSettled (setChan s0 ch { chan s0 ch with lastM := some g }) 0 ch (settlingM s0 ch g)
  let s1b := if 768 ≤ ch then darkCount s1 (ch - 768) lo g o.1.sup o.2 else s1
  let s2 := sumSlot (latchRatio s1b ch lo g o.1 (slotData o.1 o.2)) ch g o.1 (slotData o.1 o.2)
  if lenOf s2 ch then
    let r := evalItem s2 ch g o.1 o.2
    fillAll r.1 0 ch g r.2
  else fillAll s2 0 ch g (wordVal o.1 o.2)

/-- The slots of a channel that are due under a new response emerge in the commit cycle, in grid order, with SUP (R145). -/
def emergeDue (s : State) (ch : Nat) : State :=
  let l := (inFlight s ch).filter (emerged s ch)
  l.foldl (fun s g => outputM s ch g 0) s

/-- What a FRESP commit on a sampling bank makes emerge (R145); MWNOMAINS where it enters mains-window mode with no period (R142). -/
def frespEmerge (old s : State) (n : Nat) : State :=
  if producing s n ∧ frespChanged old s n then
    noMains (forEach (List.range 16) (fun s k => emergeDue s (16 * n + k)) s) n
  else noMains s n

/-! ### The pre-trigger ring (R250) -/

/-- Whole frames of the ring. -/
abbrev ringFrames : Nat := 85598

/-- Byte address of a channel's word in frame `n`. -/
def ringAddr (n ch : Nat) : Nat := n % ringFrames * 3136 + 4 * ch

/-- Whether frame `n` has been written since power-up and is still held. -/
def ringHeld (s : State) (n : Nat) : Bool :=
  match s.cnv.ringFirst, s.cnv.ringLast with
  | some a, some b => decide (a ≤ n) && decide (n ≤ b) && decide (b < n + ringFrames)
  | _, _ => false

/-- The word of a path E sample that is not held (R68): SUP with data 0, and the tags that the sample's time gives (R174, R332). -/
def lostWord (s : State) (n ch : Nat) : Word :=
  sampleWord { outTags s 1 ch (n * 128 - 128) (n * 128) (settlingE s ch n) with sup := true } 0

/-- A channel's word of a frame; a frame that is not held reads as a suppressed word (R68). -/
def ringWord (s : State) (n ch : Nat) : Word :=
  if ringHeld s n then memWord s (ringAddr n ch) else lostWord s n ch

/-- A slot's word from the ring: the stored word, or SUP with data 0 where the stored tag carries SUP (R68). -/
def ringVal (s : State) (n ch : Nat) : Val := ⟨0#32, ringWord s n ch⟩

/-- A path E sample of a channel (R140): corrected, tagged and written into the ring. -/
def sampleE (s : State) (n ch : Nat) (xr : Int) : State :=
  let o := outCode s 1 ch (n * 128 - 128) (n * 128) (settlingE s ch n) xr
  let s1 := subSettled s 1 ch (settlingE s ch n)
  let s2 := if domainOn s1 13 then memPut s1 (ringAddr n ch) (sampleWord o.1 o.2) else s1
  fillAll s2 1 ch n (wordVal o.1 o.2)

/-- The path E samples of frame `n` for channels `ch`, `ch + 1`, …: each chain takes its bits and gives the sample. -/
def frameE (s : State) (n : Nat) (ch : Nat) : List (List Bool) → State
  | [] => s
  | x :: t =>
    let s1 := feedE s ch n x
    frameE (sampleE s1 n ch (rawE s1 ch)) n (ch + 1) t

/-- The ring has frame `n` as its newest. -/
def ringMark (s : State) (n : Nat) : State :=
  if domainOn s 13 then
    { s with cnv := { s.cnv with ringFirst := some (s.cnv.ringFirst.getD n), ringLast := some n } }
  else s

/-! ### Gap of a FAULT (R66, R193) -/

/-- A context closes with a gap record whose extent stays open: it begins at the first slot not opened, at time `t`. `last`: the
context leaves RUN with it, so its block carries LAST (R192). -/
def openGap (s : State) (c reason t w5 : Nat) (last : Bool) : State :=
  let s1 := closeBlock s c last
  let x := ctx s1 c
  setCtx s1 c { x with stopped := some (gapFor s c reason t w5), cmd := 0 }

/-- The extent of an open gap is complete: the record waits to be stored; a gap of no slot leaves none. -/
def endGap (s : State) (c : Nat) : State :=
  let x := ctx s c
  match x.stopped with
  | none => s
  | some g => setCtx s c { x with stopped := none, wait := if g.slots = 0 then x.wait else x.wait ++ [g] }

/-- The gap of a STM or QUE fault is complete: the schedule reaches no further point of the context (R193, R211). -/
def endFaultGap (s : State) (c : Nat) : State := if (ctx s c).stopped.any fun g => g.reason = 5 then endGap s c else s

/-- The extent of a schedule FAULT's gap ends at time `t` (R66): the slot instants missed at the context's period; a period the
schedule does not fix leaves the count a free value. -/
def completeGap (s : State) (c t : Nat) : State :=
  let x := ctx s c
  match x.stopped with
  | none => s
  | some g =>
    if g.reason ≠ 4 then s
    else
      let per3 := (g.w5 / 4 * 3 + g.w5 % 4) * 65536
      let d := draw s
      let n := if g.w5 = 0 then (Config.freeWord d.1).toNat else ((t - g.t) * 3 + per3 - 1) / per3
      let g1 := { g with slots := n, tlast := if g.w5 = 0 then t else slotTimeBy g.t g.w5 (n - 1) }
      endGap (countSlots (setCtx d.2 c { x with stopped := some g1 }) c n) c

/-! ### Page STM under a write (R176, R184, R192–R195) -/

/-- Whether the banks of a context's channels agree in path M output period, MWIN and MWN (R176). The output period of a bank in
mains-window mode follows the mains, so equal MWN stands for it. -/
def banksAgree (s : State) (c : Nat) : Bool :=
  let l := (List.range 49).filter (ctxHasBank s c)
  match l with
  | [] => true
  | n :: t => t.all fun m => mwin s n = mwin s m && (mwin s n || periodTicks s n = periodTicks s m) &&
      get s (BNK.FRESP_MWN n) = get s (BNK.FRESP_MWN m)

/-- Words of a full block before its trailer (R176): 8 + BSLOT × NCH × w. -/
def fullWords (s : State) (c : Nat) : Nat :=
  let chs := ctxChans s c
  8 + get s (STM.CCFG_BSLOT c) * chs.length * (if get s (STM.CCFG_PATH c) = 0 && chs.any (lenOf s) then 2 else 1)

/-- Whether the image changes the channel set or path of a context. -/
def csetChanged (s img : State) (c : Nat) : Bool :=
  chg s img (STM.CCFG_PATH c) || (List.range 25).any fun j => chg s img (STM.CSET_CH j c)

/-- Whether the image changes CCFG of a context. -/
def ccfgChanged (s img : State) (c : Nat) : Bool :=
  chg s img (STM.CCFG_CEN c) || chg s img (STM.CCFG_PATH c) || chg s img (STM.CCFG_FPOL c) || chg s img (STM.CCFG_AFX c) ||
    chg s img (STM.CCFG_CHKF c) || chg s img (STM.CCFG_BSLOT c)

/-- The reasons a CCMD is rejected (R192, R194). -/
def violCcmd (s : State) (c off : Nat) (w : Word) : List Viol :=
  match wbits w 3 0 with
  | 0 => []
  | 1 => viol (cstate s c != stRUN) .state off
  | 2 => viol (cstate s c != stHOLD) .state off
  | 3 => []
  | _ => [(.range, off)]

/-- The reasons a word of page STM is rejected beyond the fields' own legal sets; a sealed METRO context's CCFG and CSET are locked whole
(R176). BSLOT = 0 is rejected where the commit leaves CEN = 1, as R176 lists it; while CEN = 0 it is accepted, as the reset value that a
disabled context keeps (DESIGN CHOICE, log entry 123: R45 names the rejection without that condition). -/
def violSTM (s img : State) (off : Nat) (w : Word) : List Viol :=
  let c := get img STM.CSEL_CTX
  if off = 0x4C then violCcmd s c off w
  else if off = 0x44 ∨ (0x80 ≤ off ∧ off ≤ 0xE0) then
    let changed := if off = 0x44 then ccfgChanged s img c else chg s img (STM.CSET_CH ((off - 0x80) / 4) c)
    viol (off = 0xE0 && wbits w 31 16 != 0) .rsvd off ++
    viol (changed && sealLocks s && isMctx s c) .locked off ++
    viol (changed && cstate s c != stOFF && cstate s c != stIDLE) .state off ++
    (if flag img (STM.CCFG_CEN c) then
      viol ((ctxChans img c).isEmpty || (get img (STM.CCFG_PATH c) = 0 && !banksAgree img c) ||
        get img (STM.CCFG_BSLOT c) = 0) .range off ++
      viol (decide (fullWords img c > 2048)) .size off
    else [])
  else []

/-- A new key generation of a context starts (R187, R363): under the present stream secret, and its first block is a device
checkpoint. -/
def newKeyGen (s : State) (c : Nat) : State :=
  let s1 := bumpMod s (STM.CKGEN_GEN c)
  raise (setCtx s1 c { ctx s1 c with ckDue := true, secret := s.sec.secret, keyDue := none }) pSTM 9

/-- What a committed burst on page STM does to the context it wrote: NCH, state OFF or IDLE, and numbering from 0 (R184, R192). -/
def afterSTM (old s : State) : State :=
  let c := get s STM.CSEL_CTX
  let s1 := put s (STM.CSTAT_NCH c) (ctxChans s c).length
  let s2 :=
    if flag s (STM.CCFG_CEN c) ∧ cstate s c = stOFF then setCState s1 c stIDLE
    else if !flag s (STM.CCFG_CEN c) ∧ cstate s c = stIDLE then setCState s1 c stOFF
    else s1
  if csetChanged old s2 c then newKeyGen (put (setCtx s2 c { ctx s2 c with nch := 0 }) (STM.CSEQ_SEQ c) 0) c else s2

/-- The effect of an accepted CCMD: it takes effect at the next slot boundary; CLOSE outside RUN and HOLD does nothing (R192). A HOLD
or RESUME that is pending closes the block as well, so CLOSE adds nothing to it. -/
def effCcmd (s : State) (w : Word) : State :=
  let c := get s STM.CSEL_CTX
  let op := wbits w 3 0
  if op = 3 ∧ (!ctxActive s c ∨ (ctx s c).cmd ≠ 0) then s else setCtx s c { ctx s c with cmd := op }

end Sys2Proof.Machine
end

