-- ==== Sys2Proof/Machine/Axs.lean ====
section
/-! DEFINITION. The axes (R47–R56, R426, R427): mains phase, shaft angle by quadrature or SSI, 1PPS, and page AXS. The edges of the
trigger pads and the index correction act on the schedule and stand in its files. -/

namespace Sys2Proof.Machine

/-! ### Tables' bases -/

/-- BASE of the live table in seconds. -/
def liveBase (s : State) : Nat := get s SCH.BASELH_SEC * 2 ^ 32 + get s SCH.BASELL_SEC

/-- BASE of the shadow in seconds. -/
def shadowBase (s : State) : Nat := get s SCH.BASESH_SEC * 2 ^ 32 + get s SCH.BASESL_SEC

/-- Ticks of a second (R47). -/
abbrev tickHz : Nat := 6144000

/-- Nanoseconds of a second. -/
abbrev secNs : Nat := 1000000000

/-! ### Mains (R50) -/

/-- The instant in 2^-16 ns at which the axis, by one crossing's position and period, reaches position `p`. -/
def MainsPt.when_ (m : MainsPt) (p : Nat) : Nat :=
  if m.pos ≤ p then m.t * 65536 + ((p - m.pos) * m.per + 65535) / 65536 else m.t * 65536 - (m.pos - p) * m.per / 65536

/-- The instant at which the axis reached position `p`, by the newest crossing not past it, but no later than the crossing after that
one, at `tn`. -/
def whenBy : Nat → MainsPt → List MainsPt → Nat → Nat
  | tn, m, [], p => min (tn * 65536) (m.when_ p)
  | tn, m, x :: r, p => if m.pos ≤ p then min (tn * 65536) (m.when_ p) else whenBy m.t x r p

/-- The mains axis at time `t` in ns. -/
def mainsAt (s : State) (t : Nat) : Nat := mainsAt16 s (t * 65536)

/-- The latest instant in ns at which the axis is known: domain time, or the last crossing's timestamp. -/
def mainsTime (s : State) : Nat := max (nowNs s) (s.axs.mainsT.getD 0)

/-- The instant in 2^-16 ns at which the mains axis reached position `p`; none where it has not (R48). -/
def mainsReached (s : State) (p : Nat) : Option Nat :=
  let m := mainsNew s
  if s.axs.mainsT.isNone ∨ m.per = 0 ∨ mainsAt s (mainsTime s) < p then none
  else if m.pos ≤ p then some (m.when_ p)
  else match s.axs.mainsLog with
    | [] => some (m.when_ p)
    | x :: r => some (whenBy m.t x r p)

/-- The cycle of the first phase-0 crossing of the axis, MOFS added, at or after second `base`, where the axis has reached it by time
`t` (R47). -/
def mainsOrigin (s : State) (base t : Nat) : Option Nat :=
  if get s AXS.MPER_PER = 0 ∨ s.axs.mainsT.isNone ∨ t < base * secNs then none
  else
    let c := (mainsAt s (base * secNs) + (2 ^ 32 - 1)) / 2 ^ 32
    if c * 2 ^ 32 ≤ mainsAt s t then some c else none

/-- The live table's MAINS origin, laid as soon as the axis has reached it: at a crossing or between two, and in MLOST as well. -/
def mainsOrgL (s : State) : Option Nat :=
  match s.axs.mainsOrg with
  | some c => some c
  | none => if flag s SCH.SSTAT_EPV then mainsOrigin s (liveBase s) (mainsTime s) else none

/-- The committed shadow's MAINS origin. -/
def mainsOrgH (s : State) : Option Nat :=
  match s.axs.mainsOrgS with
  | some c => some c
  | none => if flag s SCH.SSTAT_SHVAL then mainsOrigin s (shadowBase s) (mainsTime s) else none

/-- Record the MAINS origins that the axis has reached, of the live table and of the committed shadow. -/
def layMains (s : State) : State := { s with axs := { s.axs with mainsOrg := mainsOrgL s, mainsOrgS := mainsOrgH s } }

/-- The signed distance in 2^-32 turn from position `e` to the nearest one congruent to `r` modulo one turn. -/
def turnDiff (e r : Nat) : Int := toSigned 32 ((r + 2 ^ 32 - e % 2 ^ 32) % 2 ^ 32)

/-- The value next to `e` that is congruent to `r` modulo one turn. -/
def nearTurn (e r : Nat) : Nat := ((e : Int) + turnDiff e r).toNat

/-- The largest correction of a relock per period: 2^-10 turn (R50). -/
abbrev slewMax : Int := 2 ^ 22

/-- The position after a crossing at which the axis stands at `e` and the PLL holds `r`: after MLOST the difference is removed in steps
of at most 2^-10 turn. -/
def relock (slew : Bool) (e r : Nat) : Nat :=
  if slew then ((e : Int) + max (-slewMax) (min slewMax (turnDiff e r))).toNat else nearTurn e r

/-- Whether a period in ns lies within 45–65 Hz. -/
def mainsValid (p : Nat) : Bool := decide (45 * p ≤ secNs) && decide (secNs ≤ 65 * p)

/-- MAINS_CROSSING (R50): the period since the last crossing is measured; the PLL holds `phase` after it; MOFS is added; 20 valid
periods in a row report lock; after MLOST the axis slews. A crossing whose period lies outside 45–65 Hz is not reported in MPER and
leaves MLOCK as it is; its phase and timestamp enter the axis like any other's (DESIGN CHOICE, log entry 104). -/
def execMainsCrossing (t phase : Nat) (s : State) : Host.Outcome State Fault Refusal :=
  if flag s AXS.MCFG_MEN ∧ pstate s pAXS ≠ stOFF then
    let r := (phase + get s AXS.MOFS_OFS) % 2 ^ 32
    let pos := match s.axs.mainsT with
      | some _ => relock s.axs.mainsSlew (mainsAt s t) r
      | none => r
    let slew := s.axs.mainsSlew && decide (slewMax < (turnDiff (mainsAt s t) r).natAbs)
    let log := match s.axs.mainsT with
      | some _ => (mainsNew s :: s.axs.mainsLog).take 20
      | none => []
    let good := match s.axs.mainsT with
      | some t0 => mainsValid (t - t0)
      | none => false
    let per := match s.axs.mainsT with
      | some t0 => t - t0
      | none => 0
    let n := if good then min (s.axs.mainsGood + 1) 20 else 0
    let s1 := if good then putB (put s AXS.MPER_PER per) AXS.ASTAT_MLOST false else s
    let s2 := layMains { s1 with axs := { s1.axs with mainsT := some t, mainsPos := pos, mainsGood := n, mainsLog := log
                                                      mainsSlew := slew, mwRaised := s1.axs.mwRaised && !good } }
    if n = 20 ∧ !flag s2 AXS.ASTAT_MLOCK then .next (raise (putB s2 AXS.ASTAT_MLOCK true) pAXS 8) else .next s2
  else .next s

/-- MLOST (R50): no valid crossing within two periods; the PLL continues at the last measured period. -/
def execMlost (s : State) : Host.Outcome State Fault Refusal :=
  if flag s AXS.MCFG_MEN ∧ pstate s pAXS ≠ stOFF ∧ s.axs.mainsT ≠ none ∧ !flag s AXS.ASTAT_MLOST then
    let s1 := puts s [(AXS.ASTAT_MLOST, 1), (AXS.ASTAT_MLOCK, 0)]
    .next (raise { s1 with axs := { s1.axs with mainsGood := 0, mainsSlew := true } } pAXS 9)
  else .next s

/-! ### Shaft angle (R52, R53, R426) -/

/-- Counts per turn; 0 where none are configured. -/
def cpt (s : State) : Nat := get s AXS.ECPTHI_CPT32 * 2 ^ 32 + get s AXS.ECPTLO_CPT

/-- The angle axis in counts from turn 0. -/
def angleNow (s : State) : Int := s.axs.turn * cpt s + get s AXS.ECNT_CNT

/-- The axis reaches count 0 of a turn at time `t` in 2^-16 ns: origins of tables whose BASE has come are laid (R47). -/
def layAngle (s : State) (turn : Int) (t : Nat) : State :=
  let l := match s.axs.turnOrg with
    | some c => some c
    | none => if flag s SCH.SSTAT_EPV && decide (liveBase s * secNs * 65536 ≤ t) then some turn else none
  let h := match s.axs.turnOrgS with
    | some c => some c
    | none => if flag s SCH.SSTAT_SHVAL && decide (shadowBase s * secNs * 65536 ≤ t) then some turn else none
  { s with axs := { s.axs with turnOrg := l, turnOrgS := h } }

/-- The instant in 2^-16 ns at which a forward motion reached position `p`: the edge's timestamp, or between two SSI readings by linear
interpolation (R52, R53; rounded to nearest, DESIGN CHOICE, log entry 104). -/
def AngSeg.when_ (m : AngSeg) (p : Int) : Nat :=
  m.tlo * 65536 + roundUpHalf ((p - m.lo).toNat * (m.thi - m.tlo) * 65536) (m.hi - m.lo).toNat

/-- A motion that reaches count 0 lays origins there: the crossing's own instant decides whether BASE has come, also between two SSI
readings on either side of it (DEDUCED from R53, log entry 121). -/
def layOrigins (s : State) (m : AngSeg) : State :=
  let turn := m.hi / (cpt s : Int)
  if m.lo < turn * cpt s then layAngle s turn (m.when_ (turn * cpt s)) else s

/-- Point `k` of an ANGLE entry whose table's origin lies at turn `org`, in counts from turn 0. -/
def anglePointAt (s : State) (org : Int) (e : Ent) (k : Nat) : Int :=
  (org + (e.start / 2 ^ 32 : Nat)) * cpt s + (e.start % 2 ^ 32 + k * e.step : Nat)

/-- Point `k` of an ANGLE entry of the live table. -/
def anglePoint (s : State) (e : Ent) (k : Nat) : Int := anglePointAt s (s.axs.turnOrg.getD 0) e k

/-- The points of the ANGLE axis that are still to fire: the next point of every live entry, and the committed shadow's EPOCH. -/
def angleWants (s : State) : List Int :=
  (match s.axs.turnOrg with
  | none => []
  | some _ => (liveIdx s).filterMap fun i =>
      let e := entAt s (liveT s) i
      if e.axis = axANGLE then some (anglePoint s e (progress s i).k) else none) ++
  (match s.axs.turnOrgS with
  | none => []
  | some o => if flag s SCH.SSTAT_SHVAL then (List.range 256).filterMap fun i =>
        let e := entAt s (shadowT s) i
        if e.act = actEPOCH ∧ e.axis = axANGLE then some (anglePointAt s o e 0) else none
      else [])

/-- Keep a forward motion: of the earlier ones stay those that some point may still need, and those within a CCLK cycle (5 ns) of it, which
a switch in that cycle may still need (R63). -/
def recordMove (s : State) (m : AngSeg) : State :=
  let want := angleWants s
  { s with axs := { s.axs with path := (s.axs.path.filter fun x =>
      (want.any fun p => decide (p ≤ x.hi)) || decide (m.thi ≤ x.thi + 5)) ++ [m] } }

/-- The motion in which the angle axis reached position `p` in the forward direction; none where it has not. -/
def angleMove (s : State) (p : Int) : Option AngSeg := s.axs.path.find? fun m => decide (m.lo < p) && decide (p ≤ m.hi)

/-- The instant in 2^-16 ns at which the angle axis reached position `p` in the forward direction; none where it has not. -/
def angleReached (s : State) (p : Int) : Option Nat := (angleMove s p).map fun m => m.when_ p

/-- The position of the angle axis at an instant in 2^-16 ns, by the motions kept; where it has not moved since, where it stands. -/
def angleAt (s : State) (t : Nat) : Int :=
  match s.axs.path.find? fun m => decide (t < m.thi * 65536) with
  | none => angleNow s
  | some m =>
    if t < m.tlo * 65536 then m.lo
    else m.lo + ((t - m.tlo * 65536) * (m.hi - m.lo).toNat / ((m.thi - m.tlo) * 65536) : Nat)

/-- Move the angle axis to a turn and count at timestamp `t` (ns), EDLY already taken off: each forward motion lays the origins it reaches
and is kept for the points it reaches. An axis set to a position without moving there reaches it by a motion of one count (DEDUCED from
R48, log entry 121). -/
def setAngle (s : State) (turn : Int) (cnt t : Nat) (up : Bool) (moves : List AngSeg) : State :=
  let s1 := putB (put s AXS.ECNT_CNT cnt) AXS.ASTAT_EREV (!up)
  moves.foldl (fun s m => recordMove (layOrigins s m) m) { s1 with axs := { s1.axs with turn := turn, edgeT := t } }

/-- A timestamp less EDLY (R52, R53). -/
def lessDly (s : State) (t : Nat) : Nat := t - get s AXS.EDLY_DLY

/-- One count up or down at an edge with timestamp `t` (R52). -/
def countAngle (s : State) (t : Nat) (up : Bool) : State :=
  let c := get s AXS.ECNT_CNT
  let d := lessDly s t
  let one (p : Int) : List AngSeg := [⟨p - 1, p, d, d, false⟩]
  if up then
    (if cpt s ≤ c + 1 then setAngle s (s.axs.turn + 1) 0 d true (one ((s.axs.turn + 1) * cpt s))
    else setAngle s s.axs.turn (c + 1) d true (one (s.axs.turn * cpt s + (c + 1))))
  else if c = 0 then setAngle s (s.axs.turn - 1) (cpt s - 1) d false []
  else setAngle s s.axs.turn (c - 1) d false []

/-- Position of the levels (A, B) in the cycle 00, 10, 11, 01 that they run through while A leads B. -/
def quadPhase (a b : Bool) : Nat := if a then (if b then 2 else 1) else (if b then 3 else 0)

/-- ENCODER_EDGE (R52): ×4 decoding; A and B changing together is an illegal transition. -/
def execEncoderEdge (a b : Bool) (t : Nat) (s : State) : Host.Outcome State Fault Refusal :=
  let d := (quadPhase a b + 4 - quadPhase s.axs.encA s.axs.encB) % 4
  let s1 := { s with axs := { s.axs with encA := a, encB := b } }
  if pstate s pAXS = stOFF ∨ get s AXS.ECFG_SRC ≠ 1 ∨ d = 0 then .next s1
  else if d = 2 then .next (raise s1 pAXS 10)
  else if cpt s = 0 then .next s1
  else .next (countAngle s1 t (decide (d = 1) != flag s AXS.ECFG_DIR))

/-- SSI_FRAME (R53): a frame of SSIB bits; the upper MTB bits are the turn count; its timestamp less EDLY is the reading's. The clock
is driven only in a role that drives; another unit's frames are decoded without it (R327). A frame whose
line is not idle, or whose position jumps by more than CPT/4, is discarded and raises SSIERR. One whose count is not below CPT, which
R53 forbids without saying what becomes of it, is discarded in the same way (DESIGN CHOICE, log entry 105). -/
def execSsiFrame (bits : Nat) (idle : Bool) (t : Nat) (s : State) : Host.Outcome State Fault Refusal :=
  let n := get s AXS.ECFG_SSIB
  if pstate s pAXS = stOFF ∨ get s AXS.ECFG_SRC ≠ 2 ∨ n = 0 then .next s
  else
    let s0 := if roleDrives s then emit s (.ssiClk n) else s
    let c := cpt s
    if c = 0 then .next s0
    else
      let low := n - get s AXS.ECFG_MTB
      let cnt := bits % 2 ^ n % 2 ^ low
      let trn := bits % 2 ^ n / 2 ^ low
      let span : Nat := 2 ^ (n - low) * c
      let pos : Int := match s.axs.ssiLast with
        | none => (trn * c + cnt : Nat)
        | some p =>
          let d : Int := (((trn * c + cnt : Nat) : Int) - p) % span
          p + if 2 * d ≤ span then d else d - span
      let jump : Bool := match s.axs.ssiLast with
        | none => false
        | some p => decide (4 * (pos - p).natAbs > c)
      if !idle ∨ c ≤ cnt ∨ jump then .next (raise (putB s0 AXS.ASTAT_SSIOK false) pAXS 12)
      else
        let up : Bool := match s.axs.ssiLast with
          | none => true
          | some p => decide (p ≤ pos)
        let d := lessDly s t
        let s1 := putB { s0 with axs := { s0.axs with ssiLast := some pos } } AXS.ASTAT_SSIOK true
        let move : List AngSeg := match s.axs.ssiLast with
          | none => [⟨pos - 1, pos, d, d, false⟩]
          | some p => if up then [⟨p, pos, s.axs.edgeT, d, false⟩] else []
        .next (if s.axs.ssiLast = some pos then { s1 with axs := { s1.axs with edgeT := d } }
          else setAngle s1 (pos / c) (pos % c).toNat d up move)

/-! ### Output pads (R55) -/

/-- Drive high every output pad of live-table entry `i` with a pulse width; page AXS in OFF does no work (R37), and in
a role that does not drive the pads are high-impedance (R327). -/
def pulsePads (s : State) (i : Nat) : State :=
  let l := (List.range 8).filter fun k =>
    pstate s pAXS != stOFF && roleDrives s && get s (AXS.TRGCFG_DIR k) = 2 && get s (AXS.TRGCFG_OENT k) = i && get s (AXS.TRGCFG_OWID k) != 0
  { s with axs := { s.axs with trgOut := s.axs.trgOut ||| maskOf l } }

/-- TRG_PULSE_END (R55): OWID ticks after the newest point, the pad goes low. -/
def execTrgPulseEnd (pad : Nat) (s : State) : Host.Outcome State Fault Refusal :=
  if 8 ≤ pad then .fault .noSuchUnit
  else .next { s with axs := { s.axs with trgOut := maskOf ((bitsOf s.axs.trgOut 8).filter (· != pad)) } }

/-! ### Page AXS (R56, R142, R426, R427) -/

/-- Whether either table holds a non-empty entry that satisfies `p`. -/
def anyEntry (s : State) (p : Ent → Bool) : Bool :=
  (List.range 256).any fun i =>
    let a := entAt s 0 i
    let b := entAt s 1 i
    (a.act != 0 && p a) || (b.act != 0 && p b)

/-- What the computed registers of page AXS read. Until the live table's origin is laid, MCYC and ETRN, which R56 gives relative to it,
show the axis's own cycle and turn counts (DESIGN CHOICE, log entry 104). -/
def viewAXS (s : State) (off : Nat) : Option Nat :=
  let p := mainsAt s (nowNs s)
  if off = 0x4C then some (p % 2 ^ 32)
  else if off = 0x50 then some (ofSigned 32 ((p / 2 ^ 32 : Nat) - ((mainsOrgL s).getD 0 : Nat)))
  else if off = 0x54 then
    some (pack [(AXS.ASTAT_SSIOK, get s AXS.ASTAT_SSIOK), (AXS.ASTAT_ZSEEN, s.axs.turnOrg.isSome.toNat),
      (AXS.ASTAT_EREV, get s AXS.ASTAT_EREV), (AXS.ASTAT_MLOST, get s AXS.ASTAT_MLOST), (AXS.ASTAT_MLOCK, get s AXS.ASTAT_MLOCK)])
  else if off = 0x68 then some (ofSigned 32 (s.axs.turn - s.axs.turnOrg.getD 0))
  else none

/-- Whether an SSI frame does not fit its period (R427). -/
def ssiTooLong (s : State) : Bool :=
  let n := get s AXS.ECFG_SSIB
  n != 0 && decide (get s AXS.SSIPER_PER * 40 < (n + 1) * 2 * get s AXS.SSICFG_DIV)

/-- Whether the image changes ECFG. -/
def ecfgChanged (s img : State) : Bool :=
  chg s img AXS.ECFG_MTB || chg s img AXS.ECFG_SSIB || chg s img AXS.ECFG_ZEN || chg s img AXS.ECFG_DIR || chg s img AXS.ECFG_SRC

/-- The reasons a word of page AXS is rejected beyond the fields' own legal sets. -/
def violAXS (s img : State) (off : Nat) : List Viol :=
  let angle := (pstate s pSCH = stARMED || pstate s pSCH = stRUN) && anyEntry s fun e => e.axis = axANGLE
  if off = 0x40 then
    viol (flag s AXS.MCFG_MEN && !flag img AXS.MCFG_MEN &&
      (anyEntry s (fun e => e.axis = axMAINS) || (List.range 49).any (mwin s))) .state off
  else if off = 0x58 then viol (ssiTooLong img) .range off ++ viol (ecfgChanged s img && angle) .state off
  else if off = 0x5C then viol (decide (2 ^ 32 < cpt img)) .range off ++ viol (chg s img AXS.ECPTLO_CPT && angle) .state off
  else if off = 0x60 then viol (decide (2 ^ 32 < cpt img)) .range off ++ viol (chg s img AXS.ECPTHI_CPT32 && angle) .state off
  else if off = 0x78 ∨ off = 0x7C then viol (ssiTooLong img) .range off
  else []

/-- AXS follows its inputs (R56). -/
def refreshAxs (s : State) : State :=
  let any := flag s AXS.MCFG_MEN || get s AXS.ECFG_SRC != 0 || (List.range 8).any fun k => get s (AXS.TRGCFG_DIR k) = 1
  if pstate s pAXS = stIDLE ∧ any then setPState s pAXS stRUN
  else if pstate s pAXS = stRUN ∧ !any then setPState s pAXS stIDLE
  else s

/-- What a committed burst on page AXS does beyond setting its fields: a phase offset moves the axis to the nearest position with the new
phase, so that its cycle count may fall (DESIGN CHOICE, log entry 121), a cleared CPT clears the counts, a source change drops the last
reading, a pad that is no output goes low. -/
def afterAXS (old s : State) : State :=
  let m := if chg old s AXS.MOFS_OFS then
      nearTurn s.axs.mainsPos ((s.axs.mainsPos + get s AXS.MOFS_OFS + 2 ^ 32 - get old AXS.MOFS_OFS) % 2 ^ 32)
    else s.axs.mainsPos
  let pads := maskOf ((bitsOf s.axs.trgOut 8).filter fun k => get s (AXS.TRGCFG_DIR k) = 2)
  let s1 := { s with axs := { s.axs with mainsPos := m, trgOut := pads
                                         ssiLast := if ecfgChanged old s || cpt old != cpt s then none else s.axs.ssiLast } }
  let s2 := if cpt s = 0 ∧ cpt old ≠ 0 then
      { put s1 AXS.ECNT_CNT 0 with axs := { s1.axs with turn := 0, path := [], turnOrg := s1.axs.turnOrg.map fun _ => 0
                                                        turnOrgS := s1.axs.turnOrgS.map fun _ => 0 } }
    else s1
  let s3 := if flag old AXS.MCFG_MEN ∧ !flag s AXS.MCFG_MEN then
      let s4 := puts s2 [(AXS.ASTAT_MLOST, 0), (AXS.ASTAT_MLOCK, 0)]
      { s4 with axs := { s4.axs with mainsT := none, mainsGood := 0, mainsLog := [], mainsSlew := false } }
    else s2
  refreshAxs s3

end Sys2Proof.Machine
end

