-- ==== Sys2Proof/Machine/Sch.lean ====
section
/-! DEFINITION. The DAMASK schedule (R57–R73): commits and their checks, switches, points, trigger windows, the STOP point, and page
SCH. The index correction and CKPT points, which also act on TWILL, stand in that family's file. -/

namespace Sys2Proof.Machine

/-! ### Points (R47, R48, R57) -/

/-- W5 of a TIME entry (R181): whole ns × 4 plus thirds; 0 where the period does not fit. -/
def w5OfStep (step : Nat) : Nat :=
  let th := step * 15625 / 32
  if step = 0 ∨ 3 * 2 ^ 30 ≤ th then 0 else th / 3 * 4 + th % 3

/-- W5 of a path E period, 128 ticks. -/
abbrev w5E : Nat := 83333

/-- The first tick at or after a time in 2^-16 ns. -/
def ceilTick (t : Nat) : Nat := (t * 96 + 15625 * 65536 - 1) / (15625 * 65536)

/-- Point `k` of a TIME entry of the live table, in ticks of domain time. -/
def pointTick (s : State) (e : Ent) (k : Nat) : Nat := liveBase s * tickHz + e.start + k * e.step

/-- The first CCLK cycle at or after an instant in 2^-16 ns, its time in 2^-16 ns: cycles lie one increment apart (R48, R257). -/
def cycleAt (s : State) (t : Nat) : Nat :=
  let inc : Int := increment36 s
  let now : Int := nowNs s * 2 ^ 32 + s.time.frac
  if inc ≤ 0 then t else ((now + ((t * 65536 : Nat) - now + inc - 1) / inc * inc) / 65536).toNat

/-- The CCLK cycle before that of an instant, its time in 2^-16 ns: what lies after it falls in that cycle or later. -/
def cycleBefore (s : State) (t : Nat) : Nat :=
  let inc : Int := increment36 s
  let now : Int := nowNs s * 2 ^ 32 + s.time.frac
  if inc ≤ 0 then t - 1 else ((now + ((t * 65536 : Nat) - now - 1) / inc * inc) / 65536).toNat

/-- Point `k` of a MAINS entry whose table's origin is cycle `org`: a 32-bit cycle count over a 32-bit phase (R47, R57). -/
def mainsPoint (org : Nat) (e : Ent) (k : Nat) : Nat := org * 2 ^ 32 + e.start + k * e.step * 65536

/-- The instant in 2^-16 ns at which the axis reaches point `k` of a live entry: nominal on TIME; on MAINS and ANGLE the crossing
instant, none where the axis has no origin or has not reached the point (R48, R50, R52–R54). -/
def axisInstant (s : State) (e : Ent) (k : Nat) : Option Nat :=
  if e.axis = axTIME then some (tickTime (pointTick s e k))
  else if e.axis = axMAINS then match mainsOrgL s with
    | none => none
    | some o => mainsReached s (mainsPoint o e k)
  else if s.axs.turnOrg.isNone ∨ cpt s = 0 then none
  else angleReached s (anglePoint s e k)

/-- The instant of point `k` in 2^-16 ns: nominal on TIME; the crossing instant for a slot that is interpolated; otherwise the CCLK cycle in
which the axis reaches the point (R19, R48). -/
def pointT (s : State) (e : Ent) (k : Nat) : Nat :=
  match axisInstant s e k with
  | none => now16 s
  | some t => if e.axis = axTIME || (e.act = actOPEN && e.path = 1) then t else cycleAt s t

/-- The tick of point `k`: on the other axes, the first MCLK edge at or after the cycle (R51). -/
def pointG (s : State) (e : Ent) (k : Nat) : Nat := if e.axis = axTIME then pointTick s e k else ceilTick (cycleAt s (pointT s e k))

/-- Whether an instant lies before the STOP point (R62). -/
def beforeStop (s : State) (t : Nat) : Bool :=
  match s.sch.stopAt with
  | none => true
  | some x => decide (t < tickTime x)

/-- Whether the entry's axis has its origin: TIME always has. -/
def originLaid (s : State) (e : Ent) : Bool :=
  e.axis = axTIME || (if e.axis = axMAINS then (mainsOrgL s).isSome else s.axs.turnOrg.isSome && cpt s != 0)

/-- The committed shadow's EPOCH entry. -/
def epochEnt (s : State) : Option Ent :=
  if flag s SCH.SSTAT_SHVAL then
    ((List.range 256).map (entAt s (shadowT s))).find? fun e => e.act = actEPOCH
  else none

/-- The instant in 2^-16 ns at which the committed shadow's EPOCH point is reached (R59, R63): nominal on TIME; none where another axis has
not reached it. -/
def epochInstant (s : State) : Option Nat :=
  match epochEnt s with
  | none => none
  | some e =>
    if e.axis = axTIME then some (tickTime (shadowBase s * tickHz + e.start))
    else if e.axis = axMAINS then match mainsOrgH s with
      | none => none
      | some o => mainsReached s (mainsPoint o e 0)
    else match s.axs.turnOrgS with
      | none => none
      | some o => angleReached s (anglePointAt s o e 0)

/-- Whether the CCLK cycle of an instant lies before that of the committed shadow's EPOCH point: a point in the switch cycle belongs to the
new table (R63, R67). -/
def beforeEpoch (s : State) (t : Nat) : Bool :=
  match epochInstant s with
  | none => true
  | some x => decide (cycleAt s t < cycleAt s x)

/-- Whether an ANGLE point reached at an instant lies before the switch that made its table live: two SSI readings on either side of the
switch bracket it, and it is skipped (R63). -/
def beforeSwitch (s : State) (e : Ent) (t : Nat) : Bool := e.axis = axANGLE && decide (t ≤ cycleBefore s s.sch.switchAt)

/-- The live entry `i` of action `act` that has a next point. -/
def nextPoint (s : State) (i act : Nat) : Option Ent :=
  let e := entAt s (liveT s) i
  if tableLive s && e.act = act && !(progress s i).retired && originLaid s e then some e else none

/-- The order in which points of one CCLK cycle fire (R67). -/
def fireRank (act : Nat) : Nat :=
  if act = actEPOCH then 0 else if act = actSWAP then 1 else if act = actOPTP then 2 else if act = actOPEN then 3
  else if act = actTRIG then 4 else 5

/-- Whether a live entry that fires earlier in the order of R67 has its next point in the cycle of instant `t` too. -/
def waitsBefore (s : State) (i : Nat) (e : Ent) (t : Nat) : Bool :=
  (liveIdx s).any fun j =>
    let d := entAt s (liveT s) j
    d.act != actTRIG && (decide (fireRank d.act < fireRank e.act) || (d.act = e.act && decide (j < i))) &&
      (match axisInstant s d (progress s j).k with
      | none => false
      | some u => cycleAt s u = cycleAt s t)

/-- The live entry `i` of action `act` whose next point fires now: the axis has reached it since the switch (R48, R63; for TIME the command
says so), it lies before the STOP point and the EPOCH point of a committed shadow, and it is first in the order of R67. -/
def due (s : State) (i act : Nat) : Option Ent :=
  match nextPoint s i act with
  | none => none
  | some e => match axisInstant s e (progress s i).k with
    | none => none
    | some t => if !beforeSwitch s e t && beforeStop s t && beforeEpoch s t && !waitsBefore s i e t then some e else none

/-! ### Contexts and the tables that name them (R63, R65, R192) -/

/-- Whether an entry opens slots for context `c`. -/
def namesCtx (e : Ent) (c : Nat) : Bool := (e.act = actOPEN || e.act = actTRIG) && e.ctx = c

/-- Whether the committed shadow names a context. -/
def shadowNames (s : State) (c : Nat) : Bool :=
  flag s SCH.SSTAT_SHVAL && (List.range 256).any fun i => namesCtx (entAt s (shadowT s) i) c

/-- Whether a live entry that has not retired names a context. -/
def liveNames (s : State) (c : Nat) : Bool := (liveEnts s).any fun e => namesCtx e c

/-- A context's running window. -/
def winOf (s : State) (c : Nat) : Option Win := tget s.sch.wins c none
def setWin (s : State) (c : Nat) (w : Option Win) : State := { s with sch := { s.sch with wins := tset s.sch.wins c w none } }

/-- A context of a committed table is armed (R192): its kind is fixed and its slot counts clear. -/
def armCtx (s : State) (c : Nat) : State :=
  if cstate s c = stIDLE then
    let kind := get s (STM.CCFG_PATH c) = 0 && (ctxChans s c).all (lenOf s)
    setCState (puts s [(STM.CSTAT_KIND c, kind.toNat), (STM.CSLLO_N c, 0), (STM.CSLHI_N c, 0), (STM.CGAP_N c, 0)]) c stARMED
  else s

/-- A draining context whose last block has been handed to the queue is IDLE (R192), and armed again where a committed shadow names
it. -/
def drainDone (s : State) (c : Nat) : State :=
  let x := ctx s c
  if cstate s c = stDRAIN ∧ x.cur = [] ∧ x.closed = [] then
    let s1 := setCState s c stIDLE
    if shadowNames s1 c then armCtx s1 c else s1
  else s

/-- The last block of a context closes with LAST; a closed block still waiting takes the mark where none is open. -/
def closeLast (s : State) (c : Nat) : State :=
  let x := ctx s c
  match x.cur with
  | [] => setCtx s c { x with cmd := 0, closed := match x.closed.getLast? with
      | none => []
      | some b => x.closed.dropLast ++ [{ b with last := true }] }
  | _ => closeBlock (setCtx s c { x with cmd := 0 }) c true

/-- A context leaves RUN or HOLD (R192): at once, or when its running window has completed (R70); an armed one is IDLE again. -/
def ctxLeave (s : State) (c : Nat) : State :=
  if ctxActive s c then
    match winOf s c with
    | some _ => setCtx s c { ctx s c with leaving := true }
    | none => drainDone (setCState (closeLast (setCtx s c { ctx s c with leaving := false }) c) c stDRAIN) c
  else if cstate s c = stARMED then setCState s c stIDLE
  else endFaultGap s c

/-- Whether the assembler has closed the last block of every context. -/
def allClosed (s : State) : Bool :=
  s.sch.wins.isEmpty && s.ctxs.all fun e => e.2.cur.isEmpty && e.2.closed.all fun b => b.slots.all Slot.full

/-- SCH in DRAIN is IDLE once the assembler has closed the last block of every context (R65). -/
def schIdle (s : State) : State := if pstate s pSCH = stDRAIN ∧ allClosed s then setPState s pSCH stIDLE else s

/-- Every live entry has retired and no shadow is committed: DRAIN (R65). -/
def checkDrain (s : State) : State :=
  if pstate s pSCH = stRUN ∧ !flag s SCH.SSTAT_SHVAL ∧ liveIdx s = [] then
    schIdle (forEach ((List.range 64).filter (ctxOwes s)) ctxLeave (setPState s pSCH stDRAIN))
  else s

/-- Entry `i` passes its next point: the last one retires it (R57), and its context leaves (R192). -/
def advanceEntry (s : State) (i : Nat) (e : Ent) : State :=
  let k := (progress s i).k + 1
  let fin : Bool := e.step = 0 || (e.rep != 0 && decide (e.rep ≤ k))
  let s1 := setProgress s i { k := k, retired := fin }
  if fin then
    checkDrain (if e.act = actOPEN then ctxLeave s1 e.ctx else s1)
  else s1

/-- The first index of the points from `start` spaced `step` that lies after axis position `p`; none where the last one does not. -/
def firstAfter (start p : Int) (step : Nat) : Option Nat :=
  if p < start then some 0 else if step = 0 then none else some ((p - start) / (step : Int) + 1).toNat

/-- The points of ANGLE entry `i` that the axis reached before the switch are skipped, and count against its REPEAT (R63). -/
def skipPast (s : State) (i act : Nat) : State :=
  match nextPoint s i act with
  | none => s
  | some e => match axisInstant s e (progress s i).k with
    | none => s
    | some t =>
      if beforeSwitch s e t then
        let n := (firstAfter (anglePoint s e 0) (angleAt s (cycleBefore s s.sch.switchAt)) e.step).getD 1
        advanceEntry (setProgress s i { progress s i with k := n - 1 }) i e
      else s

/-- What a point's command does: the point fires and drives its pads, and the entry passes to its next one. -/
def atPoint (s : State) (i act : Nat) (fire : Ent → State) : State :=
  match due s i act with
  | none => skipPast s i act
  | some e => advanceEntry (pulsePads (fire e) i) i e

/-! ### Points that fire (R58, R67, R175) -/

/-- The OPEN point of an entry opens one slot; `skip`: an index correction in the cycle of that instant jumped over it, and its slot is
suppressed (R54). -/
def firePoint (s : State) (i : Nat) (e : Ent) (skip : Option Nat) : State :=
  let k := (progress s i).k
  let c := e.ctx
  let t := skip.getD (pointT s e k)
  let w5 := if e.axis = axTIME then w5OfStep e.step else 0
  if !ctxOwes s c then s
  else if e.path = 0 ∧ skip.isNone ∧ e.axis ≠ axTIME then
    let g := pointG s e k
    let s1 := forEach ((List.range 49).filter (ctxHasBank s c)) noMains s
    openSlot ((ctxChans s c).foldl (fun s ch => if mwin s (bankOfCh ch) then countPoint s ch g else s) s1) c t g w5 (openVals s1 c g)
  else if skip.isSome then openSlot s c t gInterp w5 ((ctxChans s c).map fun ch => (ch, some (supVal s ch (ceilTick t))))
  else if e.path = 0 then openSlot s c t (pointG s e k) w5 (openVals s c (pointG s e k))
  else if e.axis = axTIME then openSlot s c t (pointG s e k / 128) w5 (openVals s c (pointG s e k))
  else openSlot s c t gInterp w5 ((ctxChans s c).map fun ch => (ch, none))

/-- The cycle of the index correction that jumped over an ANGLE point; none where the axis reached it otherwise (R54). -/
def jumpedAt (s : State) (e : Ent) (k : Nat) : Option Nat :=
  if e.axis = axANGLE then match angleMove s (anglePoint s e k) with
    | some m => if m.skip then some (cycleAt s (m.when_ (anglePoint s e k))) else none
    | none => none
  else none

/-- OPEN_POINT (R175): one slot for every channel of the entry's context. -/
def execOpenPoint (i : Nat) (s : State) : Host.Outcome State Fault Refusal :=
  if 256 ≤ i then .fault .noSuchUnit
  else .next (schIdle (atPoint s i actOPEN fun e => firePoint s i e (jumpedAt s e (progress s i).k)))

/-- The tags of a tag byte. -/
def Tags.ofByte (b : Nat) : Tags :=
  { ovr := bit b 6, opn := bit b 5, sup := bit b 4, tko := bit b 3, bds := bit b 2, cal := bit b 1, psn := bit b 0 }

/-- An instant in 2^-16 ns on the path E grid (R71): the sample at or before it, and its fractional position μ as a 16-bit fraction,
rounded to nearest and below 1 (DEDUCED from the worked example). -/
def samplePos (t : Nat) : Nat × Nat :=
  let n := t * 48000 / sec16
  (n, min 65535 (roundUpHalf (t * 48000 % sec16) (secNs)))

/-- The weight of source sample `j`, 0 the newest, at fractional position `mu` (R71): 256 phases by μ[15:8], blended linearly by
μ[7:0]. -/
def interpWeight (mu j : Nat) : Int :=
  (256 - (mu % 256 : Nat)) * Config.interpRom (mu / 256) j + (mu % 256 : Nat) * Config.interpRom (mu / 256 + 1) j

/-- The 16-tap interpolator of R71 over samples newest first. The ROM is not given, and neither is its scale: the taps have unity gain
together, and the result is rounded to nearest, ties to even (DESIGN CHOICE, log entry 106). -/
def interpCode (mu : Nat) (xs : List Int) : Int :=
  let ws := (List.range 16).map (interpWeight mu)
  let den := ws.foldl (· + ·) 0
  let num := (ws.zip xs).foldl (fun a p => a + p.1 * p.2) 0
  roundEven (if den < 0 then -num else num) den.natAbs

/-- The interpolated value of a channel at position `mu` after sample `n` (R71): the interpolator over samples `n` − 7 to `n` + 8, and the
OR of their tags; above the capacity it is suppressed (R72). The samples are those of the pre-trigger ring, and one that the ring does
not hold suppresses the slot (DESIGN CHOICE, log entry 106: R71 does not say where the interpolator takes its samples). A result beyond 24 bits, which R71 does not state, is the free value `v`. -/
def interpVal (s : State) (ch n mu : Nat) (excess : Bool) (v : Word) : Val :=
  let ws := (List.range 16).map fun j => ringWord s (n + 8 - j) ch
  let t := Tags.ofByte (ws.foldl (fun a w => a ||| wbits w 7 0) 128)
  let x := interpCode mu (ws.map fun w => toSigned 24 (wbits w 31 8))
  ⟨0#32, sampleWord { t with sup := t.sup || excess } (if x < -0x800000 ∨ 0x7FFFFF < x then toSigned 24 v.toNat else x)⟩

/-- Fill the first interpolated slot of a list that waits for its values. -/
def fillInterp (vals : List (Nat × Option Val)) : List Slot → List Slot × Bool
  | [] => ([], false)
  | x :: r =>
    if x.g = gInterp ∧ !x.full then ({ x with vals := vals } :: r, true)
    else
      let p := fillInterp vals r
      (x :: p.1, p.2)

/-- Fill the first interpolated slot of closed blocks. -/
def fillInterpBlks (vals : List (Nat × Option Val)) : List ClosedBlk → List ClosedBlk × Bool
  | [] => ([], false)
  | b :: r =>
    let p := fillInterp vals b.slots
    if p.2 then ({ b with slots := p.1 } :: r, true)
    else
      let q := fillInterpBlks vals r
      (b :: q.1, q.2)

/-- The oldest interpolated slot of a context that waits for its values. -/
def waitingInterp (s : State) (c : Nat) : Option Slot :=
  let x := ctx s c
  (x.closed.flatMap (·.slots) ++ x.cur).find? fun z => z.g = gInterp && !z.full

/-- INTERPOLATED_SLOT (R71, R72): the oldest waiting slot of the context takes its values at its crossing instant, once the last source
sample has emerged; above 61.44 million channel-slots in a second the slot is suppressed and INTOVR is raised. -/
def execInterpolatedSlot (c : Nat) (_ _ _ : Unit) (s : State) : Host.Outcome State Fault Refusal :=
  if 64 ≤ c then .fault .noSuchUnit
  else match waitingInterp s c with
    | none => .next s
    | some z =>
      let p := samplePos z.t
      if s.cnv.ringLast.any fun l => decide (l < p.1 + 8) then .next s
      else
        let chs := ctxChans s c
        let sec := z.t / sec16
        let used := if s.sch.interp.1 = sec then s.sch.interp.2 else 0
        let excess : Bool := decide (61440000 < used + chs.length)
        let vals := chs.map fun ch => (ch, some (interpVal s ch p.1 p.2 excess (Config.freeWord (s.fresh + ch))))
        let s1 := { s with sch := { s.sch with interp := (sec, used + chs.length) }, fresh := s.fresh + 784 }
        let x := ctx s1 c
        let q := fillInterpBlks vals x.closed
        let s2 := if q.2 then setCtx s1 c { x with closed := q.1 } else setCtx s1 c { x with cur := (fillInterp vals x.cur).1 }
        .next (schIdle (if excess then raise s2 pSCH 11 else s2))

/-- A SWAP point on the banks it names (R58, R81): each sampling bank's blanking grid counts from it, and its quads take the polarity of
the index. -/
def fireSwap (s : State) (i : Nat) (e : Ent) : State :=
  let k := (progress s i).k
  let g := pointG s e k
  forEach ((List.range 48).filter fun n => swapNames e n && producing s n) (fun s n =>
    let s1 := setBank s n { bank s n with grid := g, swapped := true }
    noteCond (forEach (List.range 4) (fun s q => put s (BNK.QSTAT_POL n q) (k % 2)) s1) n) s

/-- SWAP_POINT (R81). -/
def execSwapPoint (i : Nat) (s : State) : Host.Outcome State Fault Refusal :=
  if 256 ≤ i then .fault .noSuchUnit
  else .next (atPoint s i actSWAP (fireSwap s i))

/-- An OPTP point's pulse (R58, R100). -/
def fireOptp (s : State) (i : Nat) (e : Ent) : State :=
  firePulse s e.param (e.aux / 65536 % 4) (e.aux % 65536) (pointG s e (progress s i).k)

/-- When a live entry's point `k` is to come, as far as it can be told before: its nominal time on TIME, on MAINS the time at the measured
period. The shaft does not tell (DESIGN CHOICE, log entry 122). -/
def pointSoon (s : State) (e : Ent) (k : Nat) : Option Nat :=
  if e.axis = axTIME then some (tickTime (pointTick s e k))
  else if e.axis = axMAINS ∧ (mainsNew s).per ≠ 0 then (mainsOrgL s).map fun o => (mainsNew s).when_ (mainsPoint o e k)
  else none

/-- The strings of a port that are due to light within the next 20 µs (R96): those of a CONT port that waits dark, and of a PULSE port those of
an OPTP point of the live table. -/
def lightSoon (s : State) (p : Nat) : Nat :=
  if (oport s p).dark then contMask s p
  else ((liveEnts s).zip (liveIdx s)).foldl (fun a x =>
    if x.1.act = actOPTP ∧ bit x.1.param p ∧ (pointSoon s x.1 (progress s x.2).k).any fun t =>
        decide (now16 s ≤ t) && decide (t ≤ now16 s + 20000 * 65536) then
      a ||| pulseMask s p (x.1.aux / 65536 % 4)
    else a) 0

/-- The largest need over the ports. -/
def needOf (s : State) (mask : Nat → Nat) : Nat := (List.range 16).foldl (fun a p => max a (stringNeed s p (mask p))) 0

/-- The strings of a port that are lit, or have been dark for less than 1 ms: V_B does not fall below their need yet (R96). -/
def litLately (s : State) (p : Nat) : Nat :=
  ((oport s p).lits.filter fun x => x.hi.all fun h => decide (nowTicks s < h + 6144)).foldl (fun a x => a ||| x.mask) 0

/-- V_need in mV (R96): over the strings that are lit or due to light. -/
def vNeed (s : State) : Nat := needOf s fun p => (oport s p).lit ||| pulseNow s p ||| lightSoon s p

/-- What V_B is to be, mV (R96): V_need between 4.0 V and 12.0 V, falling only 1 ms after a string is dark. -/
def vBoost (s : State) : Nat := max 4000 (min 12000 (max (vNeed s) (needOf s (litLately s))))

/-- One CCLK cycle of the boost stage (R96): V_B rises by at most 0.5 V/µs to what it is to be, and falls to it. -/
def followBoost (s : State) : State :=
  { s with vb := if pstate s pOPT = stOFF then 0 else min (vBoost s * mvUnit) (s.vb + increment36 s) }

/-- What the computed registers of page OPT read (R110). -/
def viewOPT (s : State) (off : Nat) : Option Nat :=
  if off = 0x48 then some (min (opLoadRaw s / (100 * 10 ^ 30)) 65535)
  else if off = 0x50 then
    some (pack [(OPT.BOOST_NEED, min (vNeed s) 65535), (OPT.BOOST_VOUT, if pstate s pOPT = stOFF then 0 else s.vb / mvUnit)])
  else if 0x100 ≤ off ∧ off < 0x300 ∧ off % 32 = 0xC then
    let p := (off - 0x100) / 32
    some (storedWord s pOPT off + (if flag s (OPTP.PST_DRV p) ∨ pulseNow s p = 0 then 0 else 16))
  else if off = 0x64 then
    some (2 * maskOf ((List.range 7).filter fun g =>
      (List.range 16).any fun p => get s (OPTP.PCFG_FGRP p) = g + 1 && get s (OPTP.PST_STATE p) = stFAULT))
  else none

/-- OPTP_POINT (R58). -/
def execOptpPoint (i : Nat) (s : State) : Host.Outcome State Fault Refusal :=
  if 256 ≤ i then .fault .noSuchUnit
  else .next (atPoint s i actOPTP (fireOptp s i))

/-! ### Trigger windows (R68–R70) -/

/-- A trigger is lost: counted and raised (R69). -/
def trigLost (s : State) : State := raise (bumpSat s SCH.TRGCNT_LOST) pSCH 10

/-- A channel's value in a window's slot for frame `n` (R68): from the ring; still to come where the frame has not emerged; suppressed
where it is not held. -/
def winVal (s : State) (n ch : Nat) : Option Val :=
  if ringHeld s n then some (ringVal s n ch)
  else if domainOn s 13 ∧ sampleInProgress s ≤ n then none
  else some ⟨0#32, lostWord s n ch⟩

/-- Open the slots of a context's window up to sample `upto`, at most `fuel` of them. -/
def winSlots (s : State) (c upto : Nat) : Nat → State
  | 0 => s
  | fuel + 1 =>
    match winOf s c with
    | none => s
    | some w =>
      if w.next ≤ upto ∧ w.next ≤ w.last then
        let n := w.next
        let vals := (ctxChans s c).map fun ch => (ch, winVal s n ch)
        winSlots (openSlot (setWin s c (some { w with next := n + 1 })) c (tickTime (n * 128)) n w5E vals) c upto fuel
      else s

/-- Open the slots of a window up to sample `upto`. -/
def winAdvance (s : State) (c upto : Nat) : State :=
  match winOf s c with
  | none => s
  | some w => winSlots s c upto (min w.last upto + 1 - w.next)

/-- Open a window of an entry from `first` to before `stop`; it counts against REPEAT, and an empty one yields no slot (R68, R69). -/
def openWin (s : State) (c i first stop : Nat) : State :=
  let s1 := setProgress s i { progress s i with k := (progress s i).k + 1 }
  if stop ≤ first then s1
  else
    let s2 := setWin (closeBlock s1 c false) c (some { entry := i, first := first, last := stop - 1, next := first })
    match s.cnv.ringLast with
    | none => s2
    | some n => winAdvance s2 c n

/-- The running window of a context has reached its last sample (R69, R179): its block closes, a pending trigger opens the next window,
and a context that was only completing it leaves (R70). -/
def endWin (s : State) (c : Nat) : State :=
  match winOf s c with
  | none => s
  | some w =>
    let s1 := setWin (closeBlock (winAdvance s c w.last) c false) c none
    match w.pend with
    | some (i, nt) =>
      let e := entAt s1 (liveT s1) i
      openWin s1 c i (max (nt - e.aux / 65536) (w.last + 1)) (nt + e.aux % 65536)
    | none => if (ctx s1 c).leaving then ctxLeave s1 c else s1

/-- Whether another window may open under the entry's REPEAT. -/
def winRoom (s : State) (i : Nat) (e : Ent) : Bool := e.rep = 0 || decide ((progress s i).k < e.rep)

/-- A trigger at sample `nt` while window `w` runs (R69, R70). -/
def trigRunning (s : State) (i : Nat) (e : Ent) (nt : Nat) (w : Win) : State :=
  let post := e.aux % 65536
  match e.param / 256 % 4 with
  | 0 =>
    if w.last + 1 < nt + post then
      setWin (bumpSat s SCH.TRGCNT_EXTND) e.ctx (some { w with last := nt + post - 1, entry := i, live := true })
    else s
  | 1 => if w.pend = none ∧ winRoom s i e then setWin s e.ctx (some { w with pend := some (i, nt) }) else trigLost s
  | _ => trigLost s

/-- A trigger at sample `nt` with no window running. -/
def trigIdle (s : State) (i : Nat) (e : Ent) (nt : Nat) : State :=
  if winRoom s i e then openWin s e.ctx i (nt - e.aux / 65536) (nt + e.aux % 65536) else trigLost s

/-- A trigger of entry `i` at sample `nt`: a window whose last sample lies before it has ended. -/
def trigger (s : State) (i : Nat) (e : Ent) (nt : Nat) : State :=
  match winOf s e.ctx with
  | some w =>
    if nt ≤ w.last then trigRunning s i e nt w
    else
      let s1 := endWin s e.ctx
      match winOf s1 e.ctx with
      | some w1 => if nt ≤ w1.last then trigRunning s1 i e nt w1 else trigIdle (endWin s1 e.ctx) i e nt
      | none => trigIdle s1 i e nt
  | none => trigIdle s i e nt

/-- Whether the edge at `t` (ns) is accepted by a live TRIG entry (R63, R68): from its START and the switch on, before the STOP point. -/
def accepts (s : State) (e : Ent) (pad t : Nat) : Bool :=
  e.act = actTRIG && bit e.param pad && decide (tickTime (liveBase s * tickHz + e.start) ≤ t * 65536) &&
    decide (s.sch.switchAt ≤ t * 65536) &&
    (match s.sch.stopAt with
      | none => true
      | some x => decide (t * 65536 < tickTime x))

/-- One entry's part in an edge: edges on one sample are one trigger. -/
def edgeEntry (pad t : Nat) (s : State) (i : Nat) : State :=
  let e := entAt s (liveT s) i
  if accepts s e pad t then
    let nt := (t * 48000 + secNs - 1) / secNs
    if tget s.sch.trigN i 0 = nt + 1 then s
    else trigger { s with sch := { s.sch with trigN := tset s.sch.trigN i (nt + 1) 0 } } i e nt
  else s

/-- Whether a pad's configuration takes the edge (R55). -/
def edgeTaken (s : State) (pad : Nat) (rise : Bool) : Bool :=
  get s (AXS.TRGCFG_DIR pad) = 1 && (match get s (AXS.TRGCFG_EDGE pad) with
    | 0 => rise
    | 1 => !rise
    | _ => true)

/-- TRIGGER_EDGE (R55, R68): the edge is recorded and raised, and every accepting TRIG entry takes it. -/
def execTriggerEdge (pad : Nat) (rise : Bool) (t : Nat) (s : State) : Host.Outcome State Fault Refusal :=
  if 8 ≤ pad then .fault .noSuchUnit
  else if pstate s pAXS ≠ stOFF ∧ edgeTaken s pad rise then
    let s1 := puts s [(AXS.TRGS_SEC pad, t / secNs % 2 ^ 32), (AXS.TRGN_NS pad, t % secNs)]
    let s2 := raise s1 pAXS (16 + pad)
    .next (forEach (liveIdx s2) (edgeEntry pad t) s2)
  else .next s

/-- TRIGGER_WINDOW_END (R69): the context's window has reached its last sample. -/
def execTriggerWindowEnd (c : Nat) (s : State) : Host.Outcome State Fault Refusal :=
  if 64 ≤ c then .fault .noSuchUnit
  else match winOf s c with
    | none => .next s
    | some w => if w.last + 1 ≤ w.next ∨ w.last * 128 ≤ nowTicks s then .next (schIdle (endWin s c)) else .next s

/-- TRIG entries' windows at a switch (R70): each completes for its retired entry; a pending trigger is lost. -/
def retireWins (s : State) : State :=
  s.sch.wins.foldl (fun s e => match e.2 with
    | none => s
    | some w =>
      let s1 := setWin s e.1 (some { w with live := false, pend := none })
      if w.pend = none then s1 else trigLost s1) s

/-! ### The checks of a commit (R59, R142, R195, R200, R426) -/

/-- The banks of a context. -/
def ctxBanks (s : State) (c : Nat) : List Nat := (List.range 49).filter (ctxHasBank s c)

/-- Words of a slot's channels: two each for a linearised path M context (R176). -/
def slotWidth (s : State) (c : Nat) : Nat :=
  let chs := ctxChans s c
  chs.length * (if get s (STM.CCFG_PATH c) = 0 && chs.any (lenOf s) then 2 else 1)

/-- An OPEN entry's own checks. -/
def openBad (s : State) (e : Ent) : Bool :=
  if e.axis = axTIME then
    if e.path = 1 then e.start % 128 != 0 || e.step % 128 != 0
    else (ctxBanks s e.ctx).any fun n => mwin s n || e.start % periodTicks s n != 0 || e.step % periodTicks s n != 0
  else if e.axis = axMAINS then e.path = 0 && !(ctxBanks s e.ctx).all (mwin s)
  else e.path != 1

/-- A context's own checks (R195, R200). -/
def ctxBad (s : State) (e : Ent) : Bool :=
  let c := e.ctx
  let chs := ctxChans s c
  !flag s (STM.CCFG_CEN c) || get s (STM.CCFG_PATH c) != e.path ||
    (e.path = 0 && chs.any (lenOf s) && !chs.all (lenOf s)) || (e.path = 0 && decide (fullWords s c > 2048)) ||
    decide (get s (QUE.QCFG_DEPTH c) < 4)

/-- The STEP that a bank asks of a SWAP entry that names it (R59, R142). -/
def swapStep (s : State) (n : Nat) : Nat :=
  if mwin s n then get s (BNK.XCTL_HALFP n) * get s (BNK.FRESP_MWN n) * 65536 else get s (BNK.XCTL_HALFP n) * periodTicks s n

/-- A SWAP entry's own checks. -/
def swapBad (s : State) (e : Ent) : Bool :=
  let a := e.aux / 256 % 64
  let b := e.aux % 64
  decide (47 < a) || decide (47 < b) || decide (b < a) || e.aux / 2 ^ 14 != 0 || e.aux / 64 % 4 != 0 || e.param != 0 ||
    ((List.range 48).filter (swapNames e)).any fun n => e.step != swapStep s n || (mwin s n && e.axis != axMAINS)

/-- A TRIG entry's own checks. -/
def trigBad (s : State) (e : Ent) : Bool :=
  e.axis != axTIME || e.path != 1 || e.step != 0 || e.param / 256 % 4 = 3 || e.param / 1024 != 0 ||
    !(bitsOf e.param 8).any fun k => get s (AXS.TRGCFG_DIR k) = 1

/-- The EPOCH entry's own checks; a re-armed table's point is not judged again (R402). -/
def epochBad (s : State) (e : Ent) (rearm : Bool) : Bool :=
  let auth := get s DOM.DROLE_AUTH
  let at_ := tickTime (shadowBase s * tickHz + e.start)
  e.rep != 1 || (auth != 0 && e.axis != axTIME) ||
    (!rearm && e.axis = axTIME && (decide (at_ ≤ now16 s) ||
      (auth = 1 && decide (at_ < now16 s + get s SCH.LEADMN_MS * 1000000 * 65536))))

/-- Whether entry `e` at index `i` of a table offends by itself. -/
def entBad (s : State) (e : Ent) (rearm : Bool) : Bool :=
  let ctxd := e.act = actOPEN || e.act = actTRIG
  e.act = 7 || e.axis = 3 || (ctxd != (e.ctx != 0)) || e.w0 / 2 ^ 31 != 0 || e.w0 / 2 ^ 22 % 8 != 0 ||
    (e.step = 0 && e.rep != 1 && e.act != actTRIG) || (e.axis = axANGLE && cpt s = 0) ||
    ((e.act = actOPEN || e.act = actCKPT || e.act = actEPOCH) && (e.param != 0 || e.aux != 0)) ||
    (ctxd && ctxBad s e) || (e.act = actOPEN && openBad s e) || (e.act = actSWAP && swapBad s e) ||
    (e.act = actTRIG && trigBad s e) || (e.act = actEPOCH && epochBad s e rearm) ||
    (e.act = actOPTP && (e.aux / 65536 % 4 = 0 || e.aux / 2 ^ 18 != 0))

/-- Whether two entries may not stand together: two for one context, two SWAP entries for one bank, two EPOCH entries. -/
def entClash (a b : Ent) : Bool :=
  (namesCtx a a.ctx && namesCtx b a.ctx) || (a.act = actEPOCH && b.act = actEPOCH) ||
    (a.act = actSWAP && b.act = actSWAP && (List.range 48).any fun n => swapNames a n && swapNames b n)

/-- Indexes of entries that clash with one before them. -/
def clashes : List (Nat × Ent) → List (Nat × Ent) → List Nat
  | _, [] => []
  | seen, x :: t => (if seen.any fun y => entClash y.2 x.2 then [x.1] else []) ++ clashes (seen ++ [x]) t

/-- A sum of two fractions. -/
def addFrac (a b : Nat × Nat) : Nat × Nat := (a.1 * b.2 + b.1 * a.2, a.2 * b.2)

/-- Words per second of an entry (R200) as a fraction: payload, headers of full blocks, and slot-time table. -/
def entRate (s : State) (e : Ent) : Nat × Nat :=
  if namesCtx e e.ctx then
    let w := slotWidth s e.ctx
    let irregular := e.act = actOPEN && (e.axis != axTIME || w5OfStep e.step = 0)
    let b0 := get s (STM.CCFG_BSLOT e.ctx)
    let b := max 1 (if irregular then min b0 (2040 / (3 + w)) else b0)
    let words := (w + if irregular then 3 else 0) * b + 8
    let pps : Nat × Nat :=
      if e.act = actTRIG ∨ e.axis = axANGLE then (48000, 1)
      else if e.step = 0 then (0, 1)
      else if e.axis = axMAINS then (65 * 65536, e.step)
      else (tickHz, e.step)
    (words * pps.1, b * pps.2)
  else (0, 1)

/-- Whether a table's word rate exceeds 200 MW/s. -/
def rateBad (s : State) (l : List (Nat × Ent)) : Bool :=
  let r := l.foldl (fun a x => addFrac a (entRate s x.2)) (0, 1)
  decide (200000000 * r.2 < r.1)

/-- The non-empty entries of table `t`. -/
def tableEnts (s : State) (t : Nat) : List (Nat × Ent) :=
  ((List.range 256).map fun i => (i, entAt s t i)).filter fun x => x.2.act != 0

/-- The index that stands for the whole table in ENTERR. -/
abbrev wholeTable : Nat := 0x1FF

/-- What a commit of the shadow finds wrong (R59 and the rules that add to it): offending entries, and the whole table. -/
def commitErrs (s : State) (rearm : Bool) : List Nat :=
  let l := tableEnts s (shadowT s)
  let d := toSigned 32 (get s SCH.EPOCHS_EP + 2 ^ 32 - get s SCH.EPOCHL_EP)
  ((l.filter fun x => entBad s x.2 rearm).map (·.1)) ++ clashes [] l ++
    (if !(l.any fun x => x.2.act = actEPOCH) then [wholeTable] else []) ++
    (if !rearm && decide (shadowBase s ≤ s.time.sec) then [wholeTable] else []) ++
    (if !rearm && flag s SCH.SSTAT_EPV && decide (d ≤ 0) then [wholeTable] else []) ++
    (if rateBad s l then [wholeTable] else [])

/-- Whether the shadow opens slots for any context. -/
def shadowOpens (s : State) : Bool := (tableEnts s (shadowT s)).any fun x => namesCtx x.2 x.2.ctx

/-- Whether a descriptor job holds a context's codec state (R235). -/
def jobHolds (s : State) (c : Nat) : Bool :=
  (List.range 16).any fun j => get s (CDC.DSTAT_STATE j) != 0 && wbits ((job s j).dsc.getD 0 0#32) 21 16 = c && c != 0

/-- The states that keep a table from being committed: QUE or STM does no work, or a job holds a context the table would arm (R212,
R235). -/
def commitState (s : State) : Bool :=
  (shadowOpens s && (pstate s pQUE = stOFF || pstate s pSTM = stOFF)) ||
    (tableEnts s (shadowT s)).any fun x => namesCtx x.2 x.2.ctx && cstate s x.2.ctx = stIDLE && jobHolds s x.2.ctx

/-! ### Commands (R60–R62, R65, R312) -/

/-- A distribution frame from this hub on both trunk ports (R312, R362): header words, send time, body, endorsement and signature. -/
def distribute (s : State) (dkind : Nat) (body : List Word) : State :=
  let m0 := wd (2 * 2 ^ 28 + 255 * 2 ^ 20 + get s DOM.DPOS_POS * 2 ^ 10 + get s DOM.DPOS_UNIT * 2 ^ 8)
  let head := [m0, wd (dkind * 65536 + body.length)] ++ timeWords (now16 s) (flag s TSU.TSTAT_FRN) (get s DOM.DROLE_AUTH = 3) ++ body
  let ws := head ++ exactly 52 s.sec.endorse
  let fr := ws ++ exactly 24 (Config.signature 0 (exactly 12 (Config.sha384 ws)))
  sendFrame (sendFrame s 0 1 fr) 1 1 fr

/-- The body of a table frame (R312). -/
def tableBody (s : State) : List Word :=
  let l := tableEnts s (shadowT s)
  [wd (get s DOM.AGEN_GEN), wd (get s SCH.EPOCHS_EP), wd (get s SCH.BASESH_SEC), wd (get s SCH.BASESL_SEC), wd l.length] ++
    l.flatMap fun x => wd x.1 :: (List.range 6).map fun k => wd (get s (SCH.ENT k (shadowT s * 256 + x.1)))

/-- The body of a stop frame (R312). -/
def stopBody (s : State) : List Word :=
  [wd (get s DOM.AGEN_GEN), wd (get s SCH.EPOCHL_EP), wd (get s SCH.STOPHI_PT), wd (get s SCH.STOPLO_PT)]

/-- A checked shadow is committed (R62, R65, R192): SHVAL, ARMED from IDLE, its contexts armed; its origins are laid from now on. -/
def commitShadow (s : State) : State :=
  let s1 := putB s SCH.SSTAT_SHVAL true
  let s2 := { s1 with axs := { s1.axs with mainsOrgS := none, turnOrgS := none } }
  let s3 := if pstate s2 pSCH = stIDLE then setPState { s2 with sch := { s2.sch with armedOnce := true } } pSCH stARMED else s2
  forEach ((List.range 64).filter (shadowNames s3)) armCtx s3

/-- A committed shadow is given up (R62, R65): the entries stay; contexts that were armed for it, or that only it still named, go. -/
def dropShadow (s : State) : State :=
  if flag s SCH.SSTAT_SHVAL then
    let s1 := putB { s with sch := { s.sch with rearmAt := none } } SCH.SSTAT_SHVAL false
    let s2 := if pstate s1 pSCH = stARMED then setPState s1 pSCH stIDLE else s1
    forEach ((List.range 64).filter fun c => cstate s2 c = stARMED || (ctxOwes s2 c && !liveNames s2 c)) ctxLeave s2
  else s

/-- Set the STOP point relative to the live BASE (R62). -/
def setStop (s : State) (p : Nat) : State := { s with sch := { s.sch with stopAt := some (liveBase s * tickHz + p) } }

/-- The effect of an accepted SCH command (R62); a head distributes COMMIT and STOP. -/
def effSCH (s : State) (w : Word) : State :=
  let head := get s DOM.DROLE_AUTH = 1
  match wbits w 3 0 with
  | 1 =>
    let s1 := commitShadow s
    if head then distribute s1 1 (tableBody s1) else s1
  | 2 => checkDrain (dropShadow s)
  | 3 =>
    let s1 := setStop s (get s SCH.STOPHI_PT * 2 ^ 32 + get s SCH.STOPLO_PT)
    if head then distribute s1 2 (stopBody s1) else s1
  | 4 => { s with regs := s.regs.filter fun e => !(codePage e.1 = pSCH && decide (0x64 ≤ codeOff e.1) && decide (codeOff e.1 < 0x7C) &&
      decide (e.1 / 32 % 16384 / 256 = shadowT s)) }
  | _ => s

/-- Whether AUTH keeps sessions from the shadow (R60). -/
def shadowShut (s : State) : Bool := get s DOM.DROLE_AUTH = 2 || get s DOM.DROLE_AUTH = 3

/-- The reasons an SCH command is rejected. -/
def violSchCmd (s img : State) (off : Nat) (w : Word) : List Viol :=
  let st := pstate s pSCH
  let shv := flag s SCH.SSTAT_SHVAL
  match wbits w 3 0 with
  | 0 => []
  | 1 => viol (!(commitErrs img false).isEmpty) .range off ++
      viol (shadowShut s || !(st = stIDLE || st = stRUN) || shv || commitState img) .state off
  | 2 => viol (shadowShut s) .state off
  | 3 => viol (shadowShut s || st != stRUN) .state off
  | 4 => viol (shadowShut s || shv) .state off
  | _ => [(.range, off)]

/-- The reasons a word of page SCH is rejected beyond the fields' own legal sets (R57, R58, R61, R62). -/
def violSCH (s img : State) (off : Nat) (w : Word) : List Viol :=
  let shut := shadowShut s || flag s SCH.SSTAT_SHVAL
  if off = 0x40 then violSchCmd s img off w
  else if off = 0x4C then viol (chg s img SCH.EPOCHS_EP && shut) .state off
  else if off = 0x58 then viol (chg s img SCH.BASESL_SEC && shut) .state off
  else if off = 0x5C then viol (chg s img SCH.BASESH_SEC && shut) .state off
  else if 0x64 ≤ off ∧ off < 0x7C then
    let f := SCH.ENT ((off - 0x64) / 4) (selIdx img pSCH .schEntry)
    viol (off = 0x64 && (wbits w 31 31 != 0 || wbits w 24 22 != 0)) .rsvd off ++
    viol (off = 0x64 && (wbits w 27 26 = 3 || wbits w 30 28 = 7)) .range off ++
    viol (chg s img f && (shut || flag img SCH.EIDX_SEL)) .state off
  else []

/-- A rejected COMMIT whose table failed: ENTERR names the lowest offending entry (R59). -/
def schRejected (s img : State) : State :=
  put s SCH.ENTERR_IDX ((commitErrs img false).foldl min wholeTable)

/-- What the computed registers of page SCH read (R60, R73). -/
def viewSCH (s : State) (off : Nat) : Option Nat :=
  if off = 0x44 then
    some (pack [(SCH.SSTAT_AUTH, get s DOM.DROLE_AUTH), (SCH.SSTAT_EPV, get s SCH.SSTAT_EPV), (SCH.SSTAT_LIVE, get s SCH.SSTAT_LIVE),
      (SCH.SSTAT_SHVAL, get s SCH.SSTAT_SHVAL), (SCH.SSTAT_EPBHND, get s SCH.SSTAT_EPBHND), (SCH.SSTAT_NACT, (liveIdx s).length)])
  else none

/-! ### The switch (R63) -/

/-- A SWAP entry's place on its axis for banks of two tables to be compared: axis, first point and step in the axis's absolute
units. -/
def swapPlace (s : State) (base : Nat) (mo : Option Nat) (ao : Option Int) (e : Ent) : Nat × Int × Nat :=
  if e.axis = axTIME then (0, ((base * tickHz + e.start : Nat) : Int), e.step)
  else if e.axis = axMAINS then (1, ((mo.getD 0 * 2 ^ 32 + e.start : Nat) : Int), e.step * 65536)
  else (2, ao.getD 0 * cpt s + (e.start / 2 ^ 32 * cpt s + e.start % 2 ^ 32 : Nat), e.step)

/-- Whether two SWAP entries' points fall on the same instants with the same polarity. -/
def swapsAgree (a b : Nat × Int × Nat) : Bool :=
  a.1 = b.1 && a.2.2 = b.2.2 && (if a.2.2 = 0 then a.2.1 = b.2.1 else (b.2.1 - a.2.1) % (2 * a.2.2 : Nat) = 0)

/-- Whether a bank's SWAP points continue across a switch. -/
def swapContinues (old new : Option (Nat × Int × Nat)) : Bool :=
  match old, new with
  | none, none => true
  | some a, some b => swapsAgree a b
  | _, _ => false

/-- An entry's progress at a switch (R63): it starts at its first point after the cycle before the switch's, at instant `low`, with the axes
then at `mpos` and `apos` relative to the new table's origins. The EPOCH entry has fired; skipped points count; TRIG counts windows. -/
def startProgress (s : State) (low : Nat) (mpos apos : Option Int) (e : Ent) : EntProg :=
  if e.act = actEPOCH then { k := 1, retired := true }
  else if e.act = actTRIG then {}
  else
    let k :=
      if e.axis = axTIME then firstAfter e.start ((low * 96 / (15625 * 65536) : Nat) - (liveBase s * tickHz : Nat)) e.step
      else if e.axis = axMAINS then match mpos with
        | none => some 0
        | some p => firstAfter e.start p (e.step * 65536)
      else match apos with
        | none => some 0
        | some p => firstAfter ((e.start / 2 ^ 32 * cpt s + e.start % 2 ^ 32 : Nat) : Int) p e.step
    match k with
    | none => { k := 1, retired := true }
    | some n => { k := n, retired := e.rep != 0 && decide (e.rep ≤ n) }

/-- The instant of the switch in 2^-16 ns: the re-arming instant (R402), the EPOCH point's nominal time on TIME, and on the other axes the
CCLK cycle in which they reach it. -/
def switchInstant (s : State) : Nat :=
  match s.sch.rearmAt with
  | some t => t
  | none => match epochEnt s, epochInstant s with
    | some e, some t => if e.axis = axTIME then t else cycleAt s t
    | _, _ => now16 s

/-- A position before a switch, which an EPOCH point at `start` on its own axis has not passed. -/
def beforePoint (ep : Option Ent) (axis : Nat) (start p : Int) : Int :=
  match ep with
  | some e => if e.axis = axis then min p (start - 1) else p
  | none => p

/-- The mains axis at instant `low`, before a switch, relative to the new table's origin; none while no origin is laid. -/
def mainsAtSwitch (s : State) (ep : Option Ent) (low : Nat) : Option Int :=
  (mainsOrgL s).map fun o => beforePoint ep axMAINS ((ep.map (·.start)).getD 0 : Nat) ((mainsAt16 s low : Int) - (o * 2 ^ 32 : Nat))

/-- The angle axis at instant `low`, before a switch, relative to the new table's origin. -/
def angleAtSwitch (s : State) (ep : Option Ent) (low : Nat) : Option Int :=
  s.axs.turnOrg.map fun o =>
    let p := (ep.map (·.start)).getD 0
    beforePoint ep axANGLE (p / 2 ^ 32 * cpt s + p % 2 ^ 32 : Nat) (angleAt s low - o * cpt s)

/-- The place of the live table's SWAP entry that names bank `n`, retired or not; none where the table names no such bank or does not
run. -/
def swapOf (s : State) (n : Nat) : Option (Nat × Int × Nat) :=
  if tableLive s then
    ((tableEnts s (liveT s)).find? fun x => swapNames x.2 n).map fun x => swapPlace s (liveBase s) (mainsOrgL s) s.axs.turnOrg x.2
  else none

/-- A bank at a switch: the blanking grid counts from the new BASE where no SWAP entry names it (R81), and the settles restart unless
its points continue (R63). -/
def switchBank (old : List (Nat × Option (Nat × Int × Nat))) (s : State) (n : Nat) : State :=
  let new := swapOf s n
  let s1 := if new = none then setBank s n { bank s n with grid := liveBase s * tickHz } else s
  if !swapContinues (tget old n none) new ∧ producing s1 n then restartMask s1 n 0xFFFF else s1

/-- A context at a switch (R63, R192): named by the new table it runs, from ARMED, where one that still drains or was idle passes
through IDLE and ARMED in the same cycle (DEDUCED: R192 gives RUN from ARMED alone); otherwise it leaves. -/
def switchCtx (s : State) (c : Nat) : State :=
  if liveNames s c then
    let s1 := setCtx s c { ctx s c with leaving := false }
    let s2 := if cstate s1 c = stDRAIN then setCState s1 c stIDLE else s1
    let s3 := armCtx s2 c
    if cstate s3 c = stARMED then setCState s3 c stRUN else s3
  else if cstate s c = stARMED then ctxLeave (setCState s c stRUN) c
  else ctxLeave s c

/-- The live table as the start-up configuration keeps it (R401). -/
def savedTable (s : State) : Option SavedTable :=
  if flag s SCH.SSTAT_EPV then
    some ⟨((List.range 256).flatMap fun i => (List.range 6).map fun k => (6 * i + k, get s (SCH.ENT k (liveT s * 256 + i)))).filter
      fun e => e.2 != 0, get s SCH.EPOCHL_EP, liveBase s⟩
  else none

/-- A switch rewrites the stored table while SUCFG.REARM = 1 and a configuration is stored (R401). -/
def keepTable (s : State) : State :=
  if flag s PWR.SUCFG_REARM ∧ s.flash.config.isSome then { s with flash := { s.flash with table := savedTable s } } else s

/-- The switch (R63): the committed shadow becomes the live table; a gap of a schedule FAULT ends in every context (R66). -/
def doSwitch (s : State) : State :=
  let t := switchInstant s
  let ep := if s.sch.rearmAt.isSome then none else epochEnt s
  let low := cycleBefore s (match s.sch.rearmAt with
    | some x => x
    | none => (epochInstant s).getD t)
  let old := (List.range 48).map fun n => (n, swapOf s n)
  let sh := shadowT s
  let s1 := retireWins (puts s [(SCH.TRGCNT_EXTND, 0), (SCH.TRGCNT_LOST, 0)])
  let s2 := puts s1 [(SCH.SSTAT_LIVE, sh), (SCH.SSTAT_SHVAL, 0), (SCH.SSTAT_EPV, 1), (SCH.SSTAT_EPBHND, 0),
    (SCH.EPOCHL_EP, get s SCH.EPOCHS_EP), (SCH.BASELL_SEC, get s SCH.BASESL_SEC), (SCH.BASELH_SEC, get s SCH.BASESH_SEC),
    (SCH.LASTS_SEC, t / sec16), (SCH.LASTN_NS, t % sec16 / 65536)]
  let s3 := { s2 with
    sch := { s2.sch with prog := [], stopAt := none, switchAt := t, trigN := [], rearmAt := none }
    axs := { s2.axs with mainsOrg := mainsOrgH s, mainsOrgS := none, turnOrg := s2.axs.turnOrgS, turnOrgS := none
                         path := s2.axs.path.filter fun m => decide (low < m.thi * 65536) } }
  let s4 := setPState (layMains s3) pSCH stRUN
  let mp := mainsAtSwitch s4 ep low
  let ap := angleAtSwitch s4 ep low
  let s5 := forEach (List.range 256) (fun s i =>
    let e := entAt s sh i
    if e.act = 0 then s
    else setProgress (if e.act = actEPOCH ∨ (e.act = actTRIG ∧ tickTime (pointTick s e 0) = t) then pulsePads s i else s) i
      (startProgress s low mp ap e)) s4
  let s6 := forEach (List.range 48) (switchBank old) s5
  let s7 := forEach ((List.range 64).filter fun c => decide (1 ≤ cstate s6 c)) switchCtx s6
  let s8 := forEach (List.range 64) (fun s c => completeGap s c t) s7
  checkDrain (keepTable (raise s8 pSCH 8))

/-- Whether the switch may fall now: a shadow is committed, and its EPOCH point is reached, which on TIME the command says. -/
def switchDue (s : State) : Bool :=
  flag s SCH.SSTAT_SHVAL && (pstate s pSCH = stARMED || pstate s pSCH = stRUN) &&
    (s.sch.rearmAt.isSome || (epochInstant s).isSome)

/-- SWITCH (R63): the EPOCH point of the committed shadow is reached. -/
def execSwitch (s : State) : Host.Outcome State Fault Refusal := .next (if switchDue s then doSwitch s else s)

/-- The START point of a live TRIG entry, which no row of the table names, drives its pads in the cycle in which domain time reaches it
(R55, R57): `old` is the state before the cycle. -/
def startPads (old s : State) : State :=
  forEach (List.range 8) (fun s k =>
    let i := get s (AXS.TRGCFG_OENT k)
    match nextPoint s i actTRIG with
    | none => s
    | some e =>
      let t := tickTime (pointTick s e 0)
      if get s (AXS.TRGCFG_DIR k) = 2 ∧ now16 old < t ∧ t ≤ now16 s ∧ s.sch.switchAt ≤ t ∧ beforeStop s t ∧ beforeEpoch s t then
        pulsePads s i
      else s) s

/-! ### STOP and FAULT (R65, R66, R70) -/

/-- A running window at the STOP point `x` (ticks) (R70): it ends with the last sample before it, but one that completes after a switch runs to its last
sample; a pending trigger is lost. -/
def stopWin (x : Nat) (s : State) (c : Nat) : State :=
  match winOf s c with
  | none => s
  | some w =>
    if w.live then
      let s1 := if w.pend = none then s else trigLost s
      let lim := (x + 127) / 128
      if lim ≤ w.next then setWin (closeBlock s1 c false) c none
      else setWin s1 c (some { w with last := min w.last (lim - 1), live := false, pend := none })
    else match w.pend with
      | none => s
      | some _ => trigLost (setWin s c (some { w with pend := none }))

/-- STOP_POINT (R65): the pending shadow is discarded, every live entry retires, the contexts leave, and the schedule drains. -/
def execStopPoint (s : State) : Host.Outcome State Fault Refusal :=
  match s.sch.stopAt with
  | none => .next s
  | some x =>
    if pstate s pSCH ≠ stRUN then .next s
    else
      let s1 := forEach (List.range 64) (stopWin x) s
      let s2 := dropShadow (forEach (liveIdx s) (fun s i => setProgress s i { progress s i with retired := true }) s1)
      let s3 := forEach ((List.range 64).filter (ctxOwes s2)) ctxLeave s2
      .next (schIdle (setPState (raise { s3 with sch := { s3.sch with stopAt := none } } pSCH 12) pSCH stDRAIN))

/-- When the first slot not opened of a context lies, and its period word: the next sample of a window, the next point of its TIME
entry, or now. -/
def nextSlot (s : State) (c : Nat) : Nat × Nat :=
  match winOf s c with
  | some w => (tickTime (w.next * 128), w5E)
  | none =>
    match (liveIdx s).find? fun i => namesCtx (entAt s (liveT s) i) c with
    | none => (now16 s, 0)
    | some i =>
      let e := entAt s (liveT s) i
      if e.act = actOPEN ∧ e.axis = axTIME then (tickTime (pointTick s e (progress s i).k), w5OfStep e.step) else (now16 s, 0)

/-- A context at an uncorrectable table error (R66): it closes with an open gap of reason 4 and drains; its window ends. A gap of reason 5
that still counts ends before it. -/
def faultCtx (s : State) (c : Nat) : State :=
  let p := nextSlot s c
  let s1 := setWin (openGap (endFaultGap s c) c 4 p.1 p.2 true) c none
  if ctxActive s c then drainDone (setCState s1 c stDRAIN) c else s1

/-- TABLE_MEMORY_ERROR (R65, R66): an uncorrectable error in a live or committed entry moves SCH to FAULT; in ARMED the live table is the one
kept from an earlier run. -/
def execTableMemoryError (live : Bool) (i : Nat) (s : State) : Host.Outcome State Fault Refusal :=
  if 256 ≤ i then .fault .noSuchUnit
  else
    let st := pstate s pSCH
    if (live ∧ (st = stRUN ∨ st = stDRAIN ∨ (st = stARMED ∧ flag s SCH.SSTAT_EPV))) ∨ (!live ∧ flag s SCH.SSTAT_SHVAL ∧ (st = stARMED ∨ st = stRUN)) then
      .next (setPState (forEach ((List.range 64).filter (ctxOwes s)) faultCtx s) pSCH stFAULT)
    else .next s

/-! ### Outputs of the filter chain into slots (R138, R140, R250) -/

/-- The tick at which the mains phase stood MWN turns below its value at tick `g` (R141); `g` itself where the axis was not that far. -/
def windowFrom (s : State) (n g : Nat) : Nat :=
  let p := mainsAt16 s (tickTime g)
  match mainsReached s (p - get s (BNK.FRESP_MWN n) * 2 ^ 32) with
  | some t => min g (ceilTick t)
  | none => g

/-- The path M output of a channel for grid instant `g` before L0, once its chain has taken its bits (R132): that of its FIR, or of the mains
window that ends at `g`, whose length it keeps. -/
def takeM (s : State) (ch g : Nat) : Int × State :=
  let n := bankOfCh ch
  if mwin s n then
    let a := windowFrom s n g
    (rawWindow s ch a g, setChan s ch { chan s ch with mwW := g - a })
  else (rawM s ch, s)

/-- Whether `g` is the instant of a channel's next path M outputs (R138): on the grid, or that of a slot opened on an earlier grid, which
emerges on the new chain's timing (R145), and after the last one. -/
def gridNext (s : State) (ch g : Nat) : Bool :=
  (mwin s (bankOfCh ch) || g % periodTicks s (bankOfCh ch) = 0 || slotWaits s ch g) && (chan s ch).lastM.all fun l => decide (l < g)

/-- PATH_M_OUTPUT (R138): an output of path M. Outputs represent instants of the grid and emerge in grid order: one that does not is no
output of the chain, and nothing happens. -/
def execPathMOutput (ch g : Nat) (bits : List Bool) (s : State) : Host.Outcome State Fault Refusal :=
  if 784 ≤ ch then .fault .noSuchUnit
  else if gridNext s ch g then
    let r := takeM (feedM s ch g bits) ch g
    .next (schIdle (outputM r.2 ch g r.1))
  else .next s

/-- PATH_E_SAMPLE (R140, R250): the path E samples of frame `n`: written into the ring, filled into the slots that wait for them, and
opened as slots of the running windows. -/
def execPathESample (n : Nat) (bits : List (List Bool)) (s : State) : Host.Outcome State Fault Refusal :=
  let s1 := ringMark (frameE s n 0 (bits.take 784)) n
  .next (schIdle (s1.sch.wins.foldl (fun s e => winAdvance s e.1 n) s1))

end Sys2Proof.Machine
end

