-- ==== Sys2Proof/Machine/Que.lean ====
section
/-! DEFINITION. The stream queues (R196–R212): items as the assembler writes them, levels and watermarks, mirrors, the pop port, flush,
and page QUE. -/

namespace Sys2Proof.Machine

/-! ### Items (R181, R197) -/

/-- The unit field of W0: single, twin A or twin B (R181). -/
def unitCode (s : State) : Nat := get s DOM.DPOS_UNIT

/-- Header word W0 of a type, path and context (R181). -/
def headOf (s : State) (type path c : Nat) : Word :=
  wd (type * 2 ^ 24 + 2 ^ 20 + unitCode s * 2 ^ 18 + get s DOM.DPOS_POS * 256 + path * 64 + c)

/-- Header word W0 of a type and context at its present path. -/
def headW0 (s : State) (type c : Nat) : Word := headOf s type (get s (STM.CCFG_PATH c)) c

/-- A slot's payload words: one a channel, or value and item word for engineering contexts (R178). -/
def slotPayload (eng : Bool) (x : Slot) : List Word :=
  x.vals.flatMap fun e =>
    let v := e.2.getD {}
    if eng then [v.value, v.word] else [v.word]

/-- The words of a closed block as an item: header with W1 = 0, slot-time table where W5 = 0, payload (R197). -/
def itemWords (s : State) (c : Nat) (b : ClosedBlk) : List Word :=
  let eng := b.eng
  let pay := b.slots.flatMap (slotPayload eng)
  let tab := if b.w5 = 0 then b.slots.flatMap fun x => timeWords x.t x.frn x.isl else []
  let first := b.slots.headD ⟨0, 0, false, false, []⟩
  let tko := b.slots.any fun x => x.vals.any fun e => bit (e.2.getD {}).word.toNat 3
  [headW0 s (if eng then 0xA5 else 0xA1) c, 0#32] ++ timeWords first.t first.frn first.isl ++
    [wd b.w5, wd (b.slots.length * 65536 + get s (STM.CSTAT_NCH c)),
      wd (pay.length * 65536 + tko.toNat * 32768 + b.last.toNat * 512)] ++ tab ++ pay

/-- A closed block as an item with its descriptor (R198). -/
def itemOf (s : State) (c : Nat) (b : ClosedBlk) : QItem :=
  { ctx := c, type := if b.eng then 0xA5 else 0xA1, ws := itemWords s c b, pay := 8 + (if b.w5 = 0 then 3 * b.slots.length else 0)
    last := b.last }

/-- Header word `k` of an item or block. -/
def hdr (ws : List Word) (k : Nat) : Word := ws.getD k 0#32

/-- Slots of an item (W6). -/
def hdrSlots (ws : List Word) : Nat := wbits (hdr ws 6) 31 16

/-- First slot time of an item. -/
def hdrTime (ws : List Word) : Nat := timeOfWords (hdr ws 2) (hdr ws 3) (hdr ws 4)

/-- Last slot time of an item: from its table, or by its period (R183). -/
def hdrLast (ws : List Word) : Nat :=
  let n := hdrSlots ws
  if hdr ws 5 = 0#32 then timeOfWords (hdr ws (5 + 3 * n)) (hdr ws (6 + 3 * n)) (hdr ws (7 + 3 * n))
  else slotTimeBy (hdrTime ws) (hdr ws 5).toNat (n - 1)

/-! ### Levels, flags and watermarks (R201, R209) -/

/-- Words a queue holds in all. -/
def queSize (s : State) (q : Nat) : Nat := get s (QUE.QCFG_DEPTH q) * 1024

/-- The mirror queues that take a copy of the item being written into a context queue (R206): queues 64–67. -/
def Queue.copies (x : Queue) : List Nat := x.mirs.map fun m => 64 + m.val

/-- Words of items that are being written into a queue: of its own item, or of the copies a mirror takes (R206, R212). -/
def partWords (s : State) (q : Nat) : Nat :=
  if q ≤ 63 then (queue s q).part
  else ((s.queues.filter fun e => decide (e.1 ≤ 63) && e.2.copies.contains q).map fun e => e.2.part).sum

/-- The words that occupy a queue. -/
def queWords (s : State) (q : Nat) : Nat := ((queue s q).items.map (·.ws.length)).sum - (queue s q).popped + partWords s q

/-- The words a queue has room for. -/
def queRoom (s : State) (q : Nat) : Nat := queSize s q - queWords s q

/-- Whether a context queue's next item goes to the plain path: its level is at the mark of QBYP (R203). -/
def bypNow (s : State) (q : Nat) : Bool :=
  decide (q ≤ 63) && queWords s q != 0 && decide (get s QUE.QBYP_PCT * queSize s q ≤ 100 * queWords s q)

/-- The hold-off of a queue ends: QHOLD keeps the longest (R202). -/
def endHold (s : State) (q : Nat) : State :=
  match (queue s q).heldAt with
  | none => s
  | some t =>
    let s1 := put s QUE.QHOLD_CYC (min 65535 (max (get s QUE.QHOLD_CYC) (s.cyc - t)))
    putB (setQueue s1 q { queue s1 q with heldAt := none }) (QUE.QSTAT_HELD q) false

/-- The level of a queue and what follows from it alone: item count, EMPTY, FULL and BYP (R201, R203). -/
def putLevel (s : State) (q : Nat) : State :=
  let n := queWords s q
  puts s [(QUE.QLVL_LVL q, n), (QUE.QNIT_N q, (queue s q).items.length), (QUE.QSTAT_EMPTY q, (decide ((queue s q).items = [])).toNat),
    (QUE.QSTAT_FULL q, (n != 0 && decide (queSize s q ≤ n)).toNat), (QUE.QSTAT_BYP q, (bypNow s q).toNat)]

/-- Bring the level of a queue to its content: flags, watermark crossings, the peak, and the item count follow. A hold-off ends once the
queue has room (R202). -/
def refreshQueue (s : State) (q : Nat) : State :=
  let old := get s (QUE.QLVL_LVL q)
  let new := queWords s q
  let hi := get s (QUE.QWMHI_WM q)
  let lo := get s (QUE.QWMLO_WM q)
  let s0 := if queRoom s q = 0 then s else endHold s q
  let s1 := put (putLevel s0 q) (QUE.QPEAK_PK q) (max (get s (QUE.QPEAK_PK q)) new)
  let s2 := if hi ≠ 0 ∧ old < hi ∧ hi ≤ new then raise (bumpSat (put s1 (QUE.QWST_HIX q) 1) (QUE.QWCNT_HIC q)) pQUE 9 else s1
  let s3 := if lo ≠ 0 ∧ lo < old ∧ new ≤ lo then raise (bumpSat (put s2 (QUE.QWST_LOX q) 1) (QUE.QWCNT_LOC q)) pQUE 10 else s2
  refreshStream s3

/-- An item stands whole in a queue (R208): it counts; a context queue posts its notice to the codec's scheduler, a mirror raises
MITEM. -/
def enqueue (s : State) (q : Nat) (it : QItem) : State :=
  let x := queue s q
  let s1 := refreshQueue (bumpMod (setQueue s q { x with items := x.items ++ [it] }) (QUE.QITEMS_N q)) q
  if q ≤ 63 then { s1 with notices := s1.notices ++ [q] } else raise s1 pQUE 8

/-- The mirrors of a context that take a copy of `n` words whose first is written now (R206): each only if it has room for all of them;
the others drop it. -/
def mirrorsAt (s : State) (c n : Nat) : List (Fin 4) × State :=
  let ms : List (Fin 4) := [0, 1, 2, 3].filter fun m => get s (QUE.QCFG_SRC (64 + m.val)) = c && c != 0
  (ms.filter fun m => decide (n ≤ queRoom s (64 + m.val)),
    forEach ((ms.filter fun m => !decide (n ≤ queRoom s (64 + m.val))).map fun m => 64 + m.val)
      (fun s q => raise (bumpSat s (QUE.QDROP_N q)) pQUE 13) s)

/-- The item of a context that is being written grows by `n` words, with its copies. -/
def writePart (s : State) (c n : Nat) : State :=
  let x := queue s c
  refreshQueue (forEach x.copies refreshQueue (setQueue s c { x with part := x.part + n })) c

/-- A copy that was being written at a flush is whole: it counts, and is discarded (R210). -/
def enqueueDoomed (s : State) (q c : Nat) (it : QItem) : State :=
  let s1 := enqueue s q it
  let x := queue s1 q
  putLevel (setQueue s1 q { x with items := x.items.dropLast, doomed := x.doomed.erase c }) q

/-- A copy of an item of context `c` stands whole in mirror `q`. -/
def copyEnd (s : State) (q c : Nat) (it : QItem) : State :=
  if (queue s q).doomed.contains c then enqueueDoomed s q c it else enqueue s q it

/-- An item being written is whole (R208): it and its copies stand in their queues. -/
def writeEnd (s : State) (c : Nat) (it : QItem) : State :=
  let x := queue s c
  forEach x.copies (fun s q => copyEnd s q c it) (enqueue (setQueue s c { x with part := 0, mirs := [] }) c it)

/-- Write what a context queue has room for of the block at the head of its context's staging buffer (R201, R202): the whole item where it
fits; otherwise the words that fit, and the assembler is held off. -/
def writeItem (s : State) (c : Nat) (b : ClosedBlk) (rest : List ClosedBlk) : State :=
  let it := itemOf s c b
  let x := queue s c
  let n := min (it.ws.length - x.part) (queRoom s c)
  let s1 := if x.part = 0 ∧ n ≠ 0 then
      let m := mirrorsAt s c it.ws.length
      setQueue m.2 c { x with mirs := m.1 }
    else s
  if x.part + n = it.ws.length then
    schIdle (drainDone (writeEnd (endHold (setCtx s1 c { ctx s1 c with closed := rest }) c) c it) c)
  else
    let s2 := writePart s1 c n
    if (queue s2 c).heldAt.isSome then s2
    else raise (putB (setQueue s2 c { queue s2 c with heldAt := some s.cyc }) (QUE.QSTAT_HELD c) true) pQUE 12

/-- ITEM_WRITE (R202): the oldest closed block of a context whose values are complete enters its queue as far as there is room. A context
that has handed over its last block is IDLE (R192). -/
def execItemWrite (c : Nat) (s : State) : Host.Outcome State Fault Refusal :=
  if 64 ≤ c then .fault .noSuchUnit
  else match (ctx s c).closed with
    | [] => .next s
    | b :: rest =>
      if pstate s pQUE = stOFF ∨ pstate s pQUE = stFAULT ∨ !(b.slots.all Slot.full) then .next s else .next (writeItem s c b rest)

/-! ### STM and QUE in FAULT (R193, R202, R211) -/

/-- Slots that a fault gives up are counted in a context's gap: they extend an open gap of reason 5, or stand as a record of their own
before an open gap of another reason. -/
def giveUp (x : Ctx) (g : GapRec) : Ctx :=
  match x.stopped with
  | none => { x with stopped := some g }
  | some h =>
    if h.reason = 5 then
      { x with stopped := some (if h.slots = 0 then g else if g.slots = 0 then h
        else if g.t < h.t then { h with t := g.t, w5 := g.w5, slots := h.slots + g.slots }
        else { h with slots := h.slots + g.slots, tlast := g.tlast }) }
    else if g.slots = 0 then x else { x with wait := x.wait ++ [g] }

/-- A context at a fault of STM, or of QUE with its queue's items `its`: what is not handed on is given up, from the first slot not
delivered; a running context closes, and its gap of reason 5 counts the slots that the schedule reaches meanwhile (R175). Everything in the
assembler's memory is given up at ASMERR, and the gap ends where the live table reaches no further point of the context or the faulted
page is reset (DESIGN CHOICE, log entry 111); that of a context without slots in the assembler, whose queue alone is lost, ends at once. -/
def faultClose (its : List QItem) (s : State) (c : Nat) : State :=
  let x := ctx s c
  let lost := x.closed.flatMap (·.slots) ++ x.cur
  let n := (its.map fun i => hdrSlots i.ws).sum + lost.length
  let next := nextSlot s c
  let t := match its.head?, lost.head? with
    | some i, _ => hdrTime i.ws
    | none, some z => z.t
    | none, none => next.1
  let tl := match lost.getLast?, its.getLast? with
    | some z, _ => z.t
    | none, some i => hdrLast i.ws
    | none, none => t
  let w5 := match its.head? with
    | some i => (hdr i.ws 5).toNat
    | none => if lost.isEmpty then next.2 else (x.closed.head?.map (·.w5)).getD x.w5
  let s1 := setCtx s c (giveUp { x with cur := [], closed := [], cmd := 0 } { gapFor s c 5 t w5 with slots := n, tlast := tl })
  if ctxActive s c then drainDone (setCState s1 c stDRAIN) c
  else if cstate s c = stDRAIN then drainDone s1 c
  else if x.stopped = none then endFaultGap s1 c
  else s1

/-- The item a context is writing is given up, with its copies; a flush waits for none of them any more (R210). -/
def dropWrite (s : State) (c : Nat) : State :=
  let x := queue s c
  let s1 := forEach x.copies (fun s q => setQueue s q { queue s q with doomed := (queue s q).doomed.erase c }) (endHold s c)
  setQueue s1 c { queue s1 c with part := 0, mirs := [], heldAt := none }

/-- The levels of the mirrors follow where copies being written are given up. -/
def refreshMirrors (s : State) : State := forEach [64, 65, 66, 67] refreshQueue s

/-- A queue loses its content, and what is being written into it. -/
def dropQueue (s : State) (q : Nat) : State := refreshQueue (setQueue (dropWrite s q) q {}) q

/-- The contexts with slots in the assembler. -/
def assembling (s : State) : List Nat := (List.range 64).filter fun c => decide (2 < cstate s c)

/-- ASMERR (R193): STM enters FAULT and every running context closes with a gap record of reason 5. An item being written is given up. -/
def execAsmerr (s : State) : Host.Outcome State Fault Refusal :=
  if pstate s pSTM = stOFF ∨ pstate s pSTM = stFAULT then .next s
  else
    let s1 := setPState (raise s pSTM 10) pSTM stFAULT
    let s2 := forEach (assembling s) (faultClose []) s1
    .next (schIdle (refreshMirrors (forEach ((List.range 64).filter fun q => decide (0 < (queue s q).part) || (queue s q).heldAt.isSome)
      (fun s q => refreshQueue (dropWrite s q) q) s2)))

/-- QUE enters FAULT: every running context closes with its gap, and every context queue is discarded; the blocks queued of any context are
given up in its gap (R175). -/
def queFault (s : State) : State :=
  let s1 := setPState s pQUE stFAULT
  let s2 := forEach ((List.range 64).filter fun c => decide (2 < cstate s c) || !(queue s c).items.isEmpty)
    (fun t c => faultClose (queue s c).items t c) s1
  schIdle { refreshMirrors (forEach ((List.range 64).filter fun q =>
    !(queue s q).items.isEmpty || decide (0 < (queue s q).part) || (queue s q).heldAt.isSome) dropQueue s2) with notices := [] }

/-- HOLDTO (R202): a hold-off has lasted 1 ms. -/
def execHoldto (c : Nat) (s : State) : Host.Outcome State Fault Refusal :=
  if 64 ≤ c then .fault .noSuchUnit
  else if flag s (QUE.QSTAT_HELD c) ∧ pstate s pQUE = stRUN then .next (queFault (raise s pQUE 15)) else .next s

/-- DESCRIPTOR_ERROR (R211): an uncorrectable descriptor error. -/
def execDescriptorError (s : State) : Host.Outcome State Fault Refusal :=
  if pstate s pQUE = stRUN then .next (queFault s) else .next s

/-- SOFT_RESET of QUE in FAULT (R211): every queue is empty, QCFG is kept. -/
def queReset (s : State) : State := refreshMirrors { s with queues := [], notices := [] }

/-- The gaps that no fault of STM or QUE extends any more are complete. -/
def endFaultGaps (s : State) : State := if streamDown s then s else forEach (List.range 64) endFaultGap s

/-! ### The pop port (R205, R207) -/

/-- A word as the read side delivers it (R205): a failing payload word carries the PSN tag; an engineering item carries it in its tag
byte whichever of its words failed; header and table words are as read. -/
def poisonWord (it : QItem) (k : Nat) (bad prevBad : Bool) (w : Word) : Word :=
  if k < it.pay then w
  else if it.type = 0xA5 then (if (k - it.pay) % 2 = 1 ∧ (bad ∨ prevBad) then w ||| 1#32 else w)
  else if bad then w ||| 1#32 else w

/-- W0 with the type and context of the descriptor (R198). -/
def descW0 (it : QItem) (w : Word) : Word := (w &&& 0x00FFFFC0#32) ||| wd (it.type % 256 * 2 ^ 24 + it.ctx % 64)

/-- Word `k` of an item as the RAM holds it: a word that fails parity is a free value, since the spec does not fix what it has become; the
type and context of W0 come from the descriptor, never from the stored word (R198). -/
def readBad (s : State) (it : QItem) (k : Nat) (bad : Bool) : Word × State :=
  if bad then
    let d := draw s
    (if k = 0 then descW0 it (Config.freeWord d.1) else Config.freeWord d.1, d.2)
  else (it.ws.getD k 0#32, s)

/-- A queue's parity failures are counted and raised. -/
def parityFail (s : State) (q : Nat) : State := raise (bumpSat s (QUE.QPERR_N q)) pQUE 11

/-- Pop the next word of mirror queue `q`: 0 where it is empty (R207). -/
def popWord (s : State) (q : Nat) (bad : Bool) : Word × State :=
  let x := queue s q
  match x.items with
  | [] => (0#32, s)
  | it :: rest =>
    let k := x.popped
    let r := readBad s it k bad
    let w := poisonWord it k bad x.psn r.1
    let s1 := if bad then parityFail r.2 q else r.2
    let x1 : Queue :=
      if k + 1 < it.ws.length then { x with popped := k + 1, psn := bad && decide (it.pay ≤ k) && (k - it.pay) % 2 = 0 }
      else { x with items := rest, popped := 0, psn := false, flushN := x.flushN - 1 }
    (w, refreshQueue (setQueue s1 q x1) q)

/-! ### Flush (R210) -/

/-- The queues with a flush pending. -/
def flushing (s : State) : Bool := [64, 65, 66, 67].any fun q => flag s (QUE.QSTAT_FLP q)

/-- The contexts whose items are being copied into a mirror queue. -/
def copying (s : State) (q : Nat) : List Nat := (List.range 64).filter fun c => (queue s c).copies.contains q

/-- QCMD FLUSH of the selected mirror queue: every item now in it or being written, but for one the host has begun to read, is to be
discarded. -/
def effQcmd (s : State) (w : Word) : State :=
  let q := get s QUE.QSEL_Q
  if wbits w 3 0 = 1 then
    let x := queue s q
    setBusy (putB (setQueue s q { x with flushN := x.items.length, doomed := copying s q }) (QUE.QSTAT_FLP q) true) pQUE true
  else s

/-- FLUSHED (R210): the flush of a mirror queue completes, once no item that was being written at the flush is any more. -/
def execFlushed (q : Nat) (s : State) : Host.Outcome State Fault Refusal :=
  if 68 ≤ q then .fault .noSuchUnit
  else if flag s (QUE.QSTAT_FLP q) ∧ (queue s q).doomed = [] then
    let x := queue s q
    let keep := if x.popped = 0 then x.items.drop x.flushN else x.items.take 1 ++ x.items.drop (max x.flushN 1)
    let s1 := putB (setQueue s q { x with items := keep, flushN := 0 }) (QUE.QSTAT_FLP q) false
    let s2 := refreshStream (putLevel s1 q)
    .next (raise (setBusy s2 pQUE (flushing s2)) pQUE 14)
  else .next s

/-! ### Page QUE (R199, R209, R210, R212) -/

/-- Whether the image changes a queue's place. -/
def placeChanged (s img : State) (q : Nat) : Bool := chg s img (QUE.QCFG_BASE q) || chg s img (QUE.QCFG_DEPTH q)

/-- Whether two queues of the image overlap queue `q`. -/
def overlaps (img : State) (q : Nat) : Bool :=
  let b := get img (QUE.QCFG_BASE q)
  let d := get img (QUE.QCFG_DEPTH q)
  d != 0 && (List.range 68).any fun r =>
    let b1 := get img (QUE.QCFG_BASE r)
    let d1 := get img (QUE.QCFG_DEPTH r)
    r != 0 && r != q && d1 != 0 && decide (b < b1 + d1) && decide (b1 < b + d)

/-- The reasons a word of page QUE is rejected beyond the fields' own legal sets. -/
def violQUE (s img : State) (off : Nat) (w : Word) : List Viol :=
  let q := get img QUE.QSEL_Q
  if off = 0x44 then
    let b := get img (QUE.QCFG_BASE q)
    let d := get img (QUE.QCFG_DEPTH q)
    viol (decide (1024 < b + d)) .size off ++
    viol (decide (q ≤ 63) && wbits w 31 26 != 0) .rsvd off ++
    viol (overlaps img q || decide (d * 1024 < get img (QUE.QWMHI_WM q)) || decide (d * 1024 < get img (QUE.QWMLO_WM q))) .range off ++
    viol (placeChanged s img q && (!(queue s q).items.isEmpty || partWords s q != 0 || (decide (q ≤ 63) && decide (2 ≤ cstate s q)))) .state off
  else if off = 0x70 then
    let op := wbits w 3 0
    viol (decide (1 < op) || (op = 1 && decide (q ≤ 63))) .range off ++ viol (op = 1 && flag s (QUE.QSTAT_FLP q)) .busy off
  else if 0x400 ≤ off ∧ off < 0x800 then [(.range, off)]
  else []

/-- What a committed burst on page QUE does beyond setting its fields: a peak written 0 is the present level (R212), and the plain-path
mark and the depth are judged anew (R203). -/
def afterQUE (s : State) : State :=
  let q := get s QUE.QSEL_Q
  let s1 := put s (QUE.QPEAK_PK q) (max (get s (QUE.QPEAK_PK q)) (get s (QUE.QLVL_LVL q)))
  forEach (List.range 64) (fun s q => putB s (QUE.QSTAT_BYP q) (bypNow s q)) s1

/-- Whether a queue has a record under R209. -/
def quePending (s : State) (q : Nat) : Bool :=
  flag s (QUE.QWST_HIX q) || flag s (QUE.QWST_LOX q) || get s (QUE.QPERR_N q) != 0 || get s (QUE.QDROP_N q) != 0

/-- What the computed registers of page QUE read. -/
def viewQUE (s : State) (off : Nat) : Option Nat :=
  if off = 0x84 then some ((List.range 67).map fun k => get s (QUE.QCFG_DEPTH (k + 1))).sum
  else if off = 0x88 then some (maskOf ((List.range 32).filter fun k => k != 0 && quePending s k))
  else if off = 0x8C then some (maskOf ((List.range 32).filter fun k => quePending s (32 + k)))
  else if off = 0x90 then some (maskOf ((List.range 4).filter fun k => quePending s (64 + k)))
  else none

end Sys2Proof.Machine
end

