-- ==== Sys2Proof/Machine/Cdc.lean ====
section
/-! DEFINITION. The codec (R227–R239): engines, descriptor jobs, context state images, and pages CDC and CTX. -/

namespace Sys2Proof.Machine

/-! ### Errors of CANVAS reads (R251) -/

/-- An uncorrectable word at an 8-byte address. -/
def memError (s : State) (a : Nat) : State := raise (bumpSat (put s CNV.EADDR_ADDR a) CNV.EUNC_N) pCNV 11

/-- What a read or a scrub of CANVAS finds is counted. -/
def memFound (s : State) (m : MemRead) : State := m.unc.foldl memError (put s CNV.ECORR_N (get s CNV.ECORR_N + m.corr))

/-! ### Engines (R226–R229) -/

/-- Whether an engine is bypassed by ECTL. -/
def bypassed (s : State) (e : Nat) : Bool := bit (get s CDC.ECTL_BYP) e

/-- Jobs an engine holds: stream items and running descriptor jobs. -/
def engLoad (s : State) (e : Nat) : Nat :=
  (s.flights.filter fun f => f.eng = some e).length +
    ((List.range 16).filter fun j => get s (CDC.DSTAT_STATE j) = 2 && (job s j).eng = some e).length

/-- Whether an engine serves: IDLE or RUN, and not bypassed. -/
def engServes (s : State) (e : Nat) : Bool := ((engine s e).st = stIDLE || (engine s e).st = stRUN) && !bypassed s e

/-- Whether an engine takes new jobs: it serves, and a slot of its 16 is free. -/
def engFree (s : State) (e : Nat) : Bool := engServes s e && decide (engLoad s e < 16)

/-- Whether any engine serves (R227): an item that finds none passes plain. -/
def anyServes (s : State) : Bool := [0, 1, 2, 3].any (engServes s)

/-- The engine for a new job: the one with the fewest jobs, the lowest-numbered first (R227). -/
def pickEngine (s : State) : Option Nat :=
  ([0, 1, 2, 3].filter (engFree s)).foldl (fun b e => match b with
    | none => some e
    | some x => if engLoad s e < engLoad s x then some e else some x) none

/-- Put an engine into a state. -/
def setEngSt (s : State) (e v : Nat) : State := setEngine s e { engine s e with st := v }

/-- An engine whose last job is released is IDLE, or in HOLD where it is bypassed (R228). -/
def engRest (s : State) (e : Nat) : State :=
  if (engine s e).st = stRUN ∧ engLoad s e = 0 then setEngSt s e (if bypassed s e then stHOLD else stIDLE) else s

/-- The CHK window of a context opens (R226). -/
def openChk (s : State) (c : Nat) : State := setCtx s c ((ctx s c).openChk (get s CDC.CHKN_N))

/-- The CHK windows of all contexts open. -/
def openChkAll (s : State) : State := forEach ((List.range 64).filter fun c => decide (2 ≤ cstate s c)) openChk s

/-- An engine returns to service (R226, R238 ECLR): IDLE, or HOLD where its BYP bit waits. -/
def engReturn (s : State) (e : Nat) : State :=
  if bypassed s e then setEngSt s e stHOLD else raise (openChkAll (setEngSt s e stIDLE)) pCDC 13

/-- A descriptor job ends in ERROR with a code (R237). -/
def jobError (s : State) (j code : Nat) (ev : Bool) : State :=
  let s1 := setJob (puts s [(CDC.DSTAT_STATE j, 5), (CDC.DSTAT_ERR j, code)]) j { job s j with eng := none }
  if ev then raise s1 pCDC 12 else s1

/-- An engine enters FAULT (R228): its stream items pass plain, its descriptor jobs end with code ENG. -/
def engFault (s : State) (e : Nat) : State :=
  let jobs := (List.range 16).filter fun j => get s (CDC.DSTAT_STATE j) = 2 && (job s j).eng = some e
  let s1 := raise (setEngine s e { st := stFAULT }) pCDC 9
  let s2 := { s1 with flights := s1.flights.map fun f => if f.eng = some e then { f with eng := none } else f }
  forEach jobs (fun s j => jobError s j 10 true) s2

/-- ENGINE_TEST (R228): the periodic test vector of an engine in IDLE or RUN. -/
def execEngineTest (e : Nat) (pass : Bool) (s : State) : Host.Outcome State Fault Refusal :=
  if 4 ≤ e then .fault .noSuchUnit
  else if !pass ∧ ((engine s e).st = stIDLE ∨ (engine s e).st = stRUN) then .next (engFault s e) else .next s

/-- ETEST_DONE (R228): the built-in test of an engine in TEST ends. -/
def execEtestDone (e : Nat) (pass : Bool) (s : State) : Host.Outcome State Fault Refusal :=
  if 4 ≤ e then .fault .noSuchUnit
  else if (engine s e).st ≠ stTEST then .next s
  else if !pass then .next (engFault s e)
  else if (engine s e).fromClear then .next (engReturn (setEngine s e {}) e)
  else .next (setEngine s e { st := stHOLD })

/-- A mismatch of the verifying decode on an engine (R225): VFLIM mismatches within any 1 s fault it. -/
def engMismatch (s : State) (e : Nat) : State :=
  let t := nowNs s
  let l := t :: (engine s e).mismT.filter fun x => decide (t < x + secNs)
  let s1 := setEngine s e { engine s e with mismT := l }
  if get s CDC.VFLIM_N ≤ l.length then engFault s1 e else s1

/-- CDC leaves OFF: its engines are IDLE, or in HOLD where bypassed (R228). -/
def enginesOn (s : State) : State :=
  forEach [0, 1, 2, 3] (fun s e => setEngine s e { st := if bypassed s e then stHOLD else stIDLE }) s

/-- CDC enters OFF. -/
def enginesOff (s : State) : State := { s with engines := [] }

/-- ECTL writes an engine's bypass (R228): 1 holds an idle engine, 0 returns one in HOLD. -/
def bypWrite (s : State) (e : Nat) : State :=
  let st := (engine s e).st
  if bypassed s e ∧ st = stIDLE then setEngSt s e stHOLD
  else if !bypassed s e ∧ st = stHOLD then engReturn s e
  else s

/-! ### Context state (R231, R232) -/

/-- The CRC of a context's channel set (I1). -/
def csetCrc (s : State) (c : Nat) : Word := crc32c ((List.range 25).map fun j => wd (get s (STM.CSET_CH j c)))

/-- A channel record of an image. -/
def histWords (h : Hist) : List Word :=
  [wd (ofSigned 24 h.h1 * 256), wd (ofSigned 24 h.h2 * 256), wd (ofSigned 24 h.h3 * 256),
    wd (h.h * 2 ^ 30 + h.sprev * 2 ^ 27 + h.kprev * 2 ^ 22)]

/-- A channel's history in a context. -/
def histOf (x : Ctx) (j : Nat) : Hist := tget x.hist j {}

/-- The channels a context's codec state is for: those a job or RESTORE has stored, or the context's own. -/
def codecNch (s : State) (c : Nat) : Nat := if (ctx s c).nch = 0 then get s (STM.CSTAT_NCH c) else (ctx s c).nch

/-- The state image of a context (R231). -/
def imageOf (s : State) (c : Nat) : List Word :=
  let x := ctx s c
  let n := codecNch s c
  let i := [wd (0xC501 * 65536 + n), csetCrc s c, wd (min x.comp 65535)]
  let recs := (List.range n).flatMap fun j => histWords (histOf x j)
  i ++ [crc32c (i ++ recs)] ++ List.replicate 12 0#32 ++ recs

/-- Staging word `k` (R232). -/
def stage (s : State) (k : Nat) : Word := wd (get s (CTX.XWIN_D (k % 256) (k / 256)))

/-- Staging words from `k` up, within the 4,096. -/
def stages (s : State) (k n : Nat) : List Word := ((List.range n).filter fun i => decide (k + i < 4096)).map fun i => stage s (k + i)

/-- A channel record read back; none where a reserved bit is set or a value is out of range. -/
def histOfWords (a b c d : Word) : Option Hist :=
  if wbits a 7 0 ≠ 0 ∨ wbits b 7 0 ≠ 0 ∨ wbits c 7 0 ≠ 0 ∨ wbits d 21 0 ≠ 0 ∨ 5 < wbits d 29 27 ∨ 23 < wbits d 26 22 then none
  else some ⟨toSigned 24 (wbits a 31 8), toSigned 24 (wbits b 31 8), toSigned 24 (wbits c 31 8), wbits d 31 30, wbits d 29 27,
    wbits d 26 22⟩

/-- The histories that staging holds for `n` channels. -/
def stagedHist (s : State) (n : Nat) : Option (List Hist) :=
  (List.range n).mapM fun j => histOfWords (stage s (16 + 4 * j)) (stage s (17 + 4 * j)) (stage s (18 + 4 * j)) (stage s (19 + 4 * j))

/-- The CRC over staging I0–I2 and the records its NCH implies (XCRC, I3). -/
def stageCrc (s : State) : Word := crc32c (stages s 0 3 ++ stages s 16 (4 * wbits (stage s 0) 9 0))

/-- XCRC follows staging; its reset value stands until staging is first written (R233). -/
def showCrc (s : State) : State := put s CTX.XCRC_CRC (stageCrc s).toNat

/-- Put words into staging from word 0. -/
def putStage (s : State) (ws : List Word) : State :=
  showCrc ((ws.zipIdx).foldl (fun s p => put s (CTX.XWIN_D (p.2 % 256) (p.2 / 256)) p.1.toNat) s)

/-- Whether staging is a valid image for context `c` (R232). -/
def stageOk (s : State) (c : Nat) : Bool :=
  let n := wbits (stage s 0) 9 0
  wbits (stage s 0) 31 16 = 0xC501 && wbits (stage s 0) 15 10 = 0 && wbits (stage s 2) 31 16 = 0 && n = get s (STM.CSTAT_NCH c) &&
    stage s 1 = csetCrc s c && stage s 3 = stageCrc s && (stages s 4 12).all (· = 0#32) && (stagedHist s n).isSome

/-- The reasons an XCMD is rejected (R232, R233). -/
def violXcmd (s img : State) (off : Nat) (w : Word) : List Viol :=
  let c := get img CTX.XSEL_CTX
  let op := wbits w 3 0
  let st := cstate s c
  if op = 0 then []
  else if 3 < op then [(.range, off)]
  else
    viol (op = 2 && !stageOk img c) .range off ++
    viol (pstate s pCTX = stOFF || !(st = stHOLD || st = stIDLE || (st = stOFF && op != 2))) .state off ++
    viol (jobHolds s c) .busy off

/-- The effect of an accepted XCMD. -/
def effXcmd (s : State) (w : Word) : State :=
  let c := get s CTX.XSEL_CTX
  let x := ctx s c
  match wbits w 3 0 with
  | 1 =>
    let im := imageOf s c
    puts (putStage s im) [(CTX.XSTAT_NW, im.length), (CTX.XSTAT_SCTX, c)]
  | 2 =>
    match stagedHist s (wbits (stage s 0) 9 0) with
    | none => s
    | some l => setCtx s c { x with nch := l.length, comp := wbits (stage s 2) 15 0, restart := true
                                    hist := (l.zipIdx).foldl (fun t p => tset t p.2 p.1 {}) [] }
  | 3 => setCtx s c { x with restart := true, comp := 0
                             hist := (x.hist).foldl (fun t p => tset t p.1 { p.2.clear with sprev := 0 } {}) [] }
  | _ => s

/-- What a committed burst on page CTX does beyond setting its fields: a write to staging is seen in XCRC. -/
def afterCTX (s : State) (staged : Bool) : State := if staged then showCrc s else s

/-- CONTEXT_SRAM_ERROR (R238): CDC enters FAULT: every block passes plain and descriptor jobs end with code MEM. -/
def execContextSramError (s : State) : Host.Outcome State Fault Refusal :=
  if pstate s pCDC = stIDLE ∨ pstate s pCDC = stRUN then
    let s1 := { s with flights := s.flights.map fun f => { f with eng := none } }
    let js := (List.range 16).filter fun j =>
      let st := get s (CDC.DSTAT_STATE j)
      decide (1 ≤ st) && decide (st ≤ 3)
    .next (setPState (forEach [0, 1, 2, 3] engRest (forEach js (fun s j => jobError s j 9 true) s1)) pCDC stFAULT)
  else .next s

/-- SOFT_RESET of CDC (R224, R226, R238): every history empties, the engines are IDLE, and where one returns from FAULT or HOLD the CHK
windows open. -/
def cdcReset (s : State) : State :=
  let back : Bool := [0, 1, 2, 3].any fun e => (engine s e).st = stFAULT || (engine s e).st = stHOLD
  let s1 := enginesOn { forEach (List.range 64) (fun s c => setCtx s c (ctx s c).emptied) s with jobs := [] }
  if back then openChkAll s1 else s1

/-! ### Descriptor jobs (R234–R237) -/

/-- Descriptor word `k`. -/
def dscW (d : List Word) (k : Nat) : Word := d.getD k 0#32

/-- Fields of a descriptor. -/
def dOp (d : List Word) : Nat := wbits (dscW d 0) 31 28
def dChain (d : List Word) : Bool := wbits (dscW d 0) 27 27 = 1
def dRst (d : List Word) : Bool := wbits (dscW d 0) 26 26 = 1
def dUpd (d : List Word) : Bool := wbits (dscW d 0) 25 25 = 1
def dCtx (d : List Word) : Nat := wbits (dscW d 0) 21 16
def dSlots (d : List Word) : Nat := wbits (dscW d 1) 31 16
def dNch (d : List Word) : Nat := wbits (dscW d 1) 9 0
def dSlen (d : List Word) : Nat := (dscW d 3).toNat
def dDlen (d : List Word) : Nat := (dscW d 5).toNat
def dClen (d : List Word) : Nat := (dscW d 7).toNat
/-- Byte addresses of the buffers. -/
def dSrc (d : List Word) : Nat := wbits (dscW d 2) 28 0 * 8
def dDst (d : List Word) : Nat := wbits (dscW d 4) 28 0 * 8
def dChn (d : List Word) : Nat := wbits (dscW d 6) 28 0 * 8

/-- Bytes of the 64-bit units that hold `n` bits. -/
def unitBytes (n : Nat) : Nat := (n + 63) / 64 * 8

/-- The buffers of a job as byte ranges: source, destination, and the chained one if any. -/
def dBufs (d : List Word) : List (Nat × Nat) :=
  (if dOp d = 1 then [(dSrc d, dSlen d * 4), (dDst d, unitBytes (dDlen d))] else [(dSrc d, unitBytes (dSlen d)), (dDst d, dDlen d * 4)]) ++
    if dChain d then [(dChn d, unitBytes (dClen d))] else []

/-- The first byte of the work segments (R240). -/
def workBase (s : State) : Nat := (65536 - get s CNV.WRES_N) * 65536

/-- Whether two byte ranges share a byte. -/
def meets (a b : Nat × Nat) : Bool := a.2 != 0 && b.2 != 0 && decide (a.1 < b.1 + b.2) && decide (b.1 < a.1 + a.2)

/-- Whether some two ranges of a list share a byte. -/
def anyMeets : List (Nat × Nat) → Bool
  | [] => false
  | x :: t => t.any (meets x) || anyMeets t

/-- The reasons the buffers of a job are rejected (R235). -/
def violBufs (s : State) (d : List Word) (off : Nat) : List Viol :=
  let l := dBufs d
  viol (l.any fun b => decide (2 ^ 32 < b.1 + b.2)) .size off ++
  viol (anyMeets l || (l.any fun b => decide (b.1 < workBase s)) || (dOp d = 1 && (dDlen d % 64 != 0 || dClen d % 64 != 0))) .range off

/-- Whether a reserved bit of a descriptor is set. -/
def dscReserved (d : List Word) : Bool :=
  wbits (dscW d 0) 24 22 != 0 || wbits (dscW d 0) 7 0 != 0 || wbits (dscW d 1) 15 10 != 0 || wbits (dscW d 2) 31 29 != 0 ||
    wbits (dscW d 4) 31 29 != 0 || wbits (dscW d 6) 31 29 != 0

/-- DSC0–DSC7 as the page holds them. -/
def dscNow (s : State) : List Word := (List.range 8).map fun k => wd (get s (CDC.DSC k))

/-- Jobs held. -/
def jobsHeld (s : State) : Nat := ((List.range 16).filter fun j => get s (CDC.DSTAT_STATE j) != 0).length

/-- The reasons a SUBMIT is rejected (R235). -/
def violSubmit (s img : State) (off : Nat) : List Viol :=
  let d := dscNow img
  let c := dCtx d
  viol (decide (784 < dNch d)) .size off ++ viol (dscReserved d) .rsvd off ++ violBufs img d off ++
  viol (!(dOp d = 1 || dOp d = 2) || (dOp d = 1 && dSlen d != dNch d * dSlots d) || (c = 0 && (!dRst d || dUpd d)) ||
    (!dRst d && c != 0 && codecNch s c != dNch d)) .range off ++
  viol ((c != 0 && (decide (2 ≤ cstate s c) || jobHolds s c)) || !(pstate s pCDC = stIDLE || pstate s pCDC = stRUN)) .state off ++
  viol (decide (get img CDC.DJMAX_N ≤ jobsHeld s)) .busy off

/-- The reasons a DCMD is rejected (R236, R237, R239). -/
def violDcmd (s img : State) (off : Nat) (w : Word) : List Viol :=
  let op := wbits w 3 0
  let j := wbits w 19 16
  let st := get s (CDC.DSTAT_STATE j)
  match op with
  | 0 => []
  | 1 => violSubmit s img off
  | 2 => if st ≠ 3 then [(.state, off)] else
    let d := (job s j).dsc
    let n := dscNow img
    let d1 := (d.zipIdx).map fun p => if 4 ≤ p.2 then dscW n p.2 else if p.2 = 0 then
      (p.1 &&& 0xF7FFFFFF#32) ||| (dscW n 0 &&& 0x08000000#32) else p.1
    viol (dscReserved [0#32, 0#32, 0#32, 0#32, dscW n 4, 0#32, dscW n 6]) .rsvd off ++ violBufs img d1 off
  | 3 => viol (st = 0 || st = 4 || st = 5) .state off
  | 4 => viol (st != 4 && st != 5) .state off
  | _ => [(.range, off)]

/-- The neighbour map of a context; 0 maps none. -/
def nmapOf (s : State) (c : Nat) : List Nat :=
  if c = 0 then [] else (List.range 784).map fun i =>
    let k := i % 512 / 2
    let m := c * 2 + i / 512
    if i % 2 = 0 then get s (CDC.NMAP_ENA k m) else get s (CDC.NMAP_ENB k m)

/-- The words of a job's progress: consumed for ENCODE, produced for DECODE (R237). -/
def jobProgress (s : State) (j : Nat) : Nat :=
  if get s (CDC.DSTAT_OP j) = 1 then get s (CDC.DCONS_N j) else (job s j).pos + get s (CDC.DPRD0_N j)

/-- A job with UPD writes its final history and channel count into its context at DONE (R236). -/
def writeBack (s : State) (d : List Word) (h : List Hist) : State :=
  if dUpd d then
    setCtx s (dCtx d) { ctx s (dCtx d) with nch := dNch d, hist := (h.zipIdx).foldl (fun t p => tset t p.2 p.1 {}) [] }
  else s

/-- SUBMIT (R235): the lowest free job is QUEUED; one without words is DONE at once. -/
def submit (s : State) : State :=
  let d := dscNow s
  let j := ((List.range 16).find? fun j => get s (CDC.DSTAT_STATE j) = 0).getD 0
  let x := ctx s (dCtx d)
  let h := (List.range (dNch d)).map fun i =>
    let e := if dCtx d = 0 then {} else histOf x i
    if dRst d then e.clear else e
  let fin : Bool := dSlots d = 0 || dNch d = 0
  let s1 := puts s [(CDC.DSTAT_STATE j, if fin then 4 else 1), (CDC.DSTAT_ERR j, 0), (CDC.DSTAT_UTAG j, wbits (dscW d 0) 15 8),
    (CDC.DSTAT_OP j, dOp d), (CDC.DCONS_N j, 0), (CDC.DPRD0_N j, 0), (CDC.DPRD1_N j, 0), (CDC.DBITS_DB j, 0), (CDC.DBITS_CB j, 0),
    (CDC.DLAST_VAL, 1), (CDC.DLAST_JOB, j)]
  let s2 := refreshStream (setJob s1 j { dsc := d, hist := (h.zipIdx).foldl (fun t p => tset t p.2 p.1 {}) [] })
  if fin then raise (raise (writeBack s2 d h) pCDC 10) pCDC 3 else s2

/-- RESUME (R236): a stopped job is queued again with the new destination and chained buffer; a DECODE goes on at the bit it has reached,
in the new chained source where it had gone on to the old one (DEDUCED, log entry 112). -/
def resumeJob (s : State) (j : Nat) : State :=
  let n := dscNow s
  let x := job s j
  let d := (x.dsc.zipIdx).map fun p => if 4 ≤ p.2 then dscW n p.2 else if p.2 = 0 then
    (p.1 &&& 0xF7FFFFFF#32) ||| (dscW n 0 &&& 0x08000000#32) else p.1
  setJob (puts s [(CDC.DSTAT_STATE j, 1), (CDC.DPRD0_N j, 0), (CDC.DPRD1_N j, 0), (CDC.DBITS_DB j, 0), (CDC.DBITS_CB j, 0)]) j
    { x with dsc := d, pos := x.pos + if dOp x.dsc = 2 then get s (CDC.DPRD0_N j) else 0 }

/-- The effect of an accepted DCMD. -/
def effDcmd (s : State) (w : Word) : State :=
  let j := wbits w 19 16
  match wbits w 3 0 with
  | 1 => submit s
  | 2 => resumeJob s j
  | 3 =>
    let e := (job s j).eng
    let s1 := jobError s j 11 false
    match e with
    | some e => engRest s1 e
    | none => s1
  | 4 => refreshStream (setJob (puts s [(CDC.DSTAT_STATE j, 0), (CDC.DSTAT_ERR j, 0), (CDC.DSTAT_UTAG j, 0), (CDC.DSTAT_OP j, 0)]) j {})
  | _ => s

/-- JOB_START (R227, R230, R237): a queued job starts where an engine slot is free, no stream item waits, and the supply is above
SAG2. -/
def execJobStart (j : Nat) (s : State) : Host.Outcome State Fault Refusal :=
  if 16 ≤ j then .fault .noSuchUnit
  else match pickEngine s with
    | none => .next s
    | some e =>
      if get s (CDC.DSTAT_STATE j) = 1 ∧ pstate s pCDC = stRUN ∧ get s PWR.SLVL_LEVEL < 2 ∧
          (List.range 64).all (fun q => (queue s q).items.isEmpty) then
        .next (setEngSt (setJob (put s (CDC.DSTAT_STATE j) 2) j { job s j with eng := some e }) e stRUN)
      else .next s

/-- How a running job ends: 0 done, 1 stopped, 2 error with a code; what it has written by then, and its counts. -/
structure JobEnd where
  kind : Nat
  err : Nat := 0
  dst : List Word := []
  chn : List Word := []
  cons : Nat := 0
  db : Nat := 0
  cb : Nat := 0
  pos : Nat := 0
  hist : List Hist := []
  dec : Option DecSt := none
  deriving DecidableEq, Repr

/-- Pack code words into a buffer of `cap` bits: the bits, how many went in, and the rest. -/
def fillBits (cap : Nat) (b : Bits) (n : Nat) : List CodeWord → Bits × Nat × List CodeWord
  | [] => (b, n, [])
  | c :: t => if b.n + c.n ≤ cap then fillBits cap (b.add c) (n + 1) t else (b, n, c :: t)

/-- Valid bits in a buffer's last unit (R236). -/
def lastBits (n : Nat) : Nat := if n = 0 then 0 else (n - 1) % 64 + 1

/-- How an ENCODE job ends. -/
def runEncode (s : State) (x : Job) : JobEnd :=
  let d := x.dsc
  let ws := memWords s (dSrc d) (dSlen d)
  if ws.any fun w => !bit w.toNat 7 then { kind := 2, err := eTAG, pos := x.pos }
  else
    let h := (List.range (dNch d)).map fun i => tget x.hist i {}
    let e := encode (dNch d) (nmapOf s (dCtx d)) (dRst d) h (slotsOf (dNch d) (dSlots d) ws)
    let p := fillBits (dDlen d) {} 0 (e.codes.drop x.pos)
    let q := if dChain d then fillBits (dClen d) {} 0 p.2.2 else ({}, 0, p.2.2)
    let n := x.pos + p.2.1 + q.2.1
    let fin := q.2.2.isEmpty
    let cons := (e.codes.take n).foldl (fun a c => max a c.cons) 0
    { kind := if fin then 0 else 1, dst := p.1.words, chn := q.1.words, cons := if fin then ws.length else cons,
      db := lastBits p.1.n, cb := lastBits q.1.n, pos := n, hist := e.hist }

/-- Where a DECODE job reads: from the start of its payload, or where it stopped. -/
def decodeAt (s : State) (x : Job) : Except Nat (DecSt × Rd) :=
  let d := x.dsc
  let rd (a n : Nat) : Bits := (Bits.ofWords (memWords s a (unitBytes n / 4))).take n
  let chn : Option Bits := if dChain d then some (rd (dChn d) (dClen d)) else none
  match x.dec with
  | none => decodeStart (dNch d) (dSlots d) (dRst d) (nmapOf s (dCtx d)) ((List.range (dNch d)).map fun i => tget x.hist i {})
      { b := rd (dSrc d) (dSlen d), next := chn }
  | some p =>
    .ok (p, if p.chn then { b := chn.getD {}, pos := p.pos, base := p.base, chn := true }
      else { b := rd (dSrc d) (dSlen d), pos := p.pos, base := p.base, next := chn })

/-- How a DECODE job ends. -/
def runDecode (s : State) (x : Job) : JobEnd :=
  match decodeAt s x with
  | .error e => { kind := 2, err := e, pos := x.pos }
  | .ok p =>
    let o := decodeOn (dNch x.dsc) (dDlen x.dsc) p.1 p.2
    match o.1.err with
    | some e => { kind := 2, err := e, dst := o.1.out, cons := o.1.rd.at, pos := x.pos }
    | none => { kind := if o.2.tags.isEmpty then 0 else 1, dst := o.1.out, cons := o.1.rd.at, pos := x.pos, hist := o.1.hist, dec := some o.2 }

/-- How a job ends that runs on from its present buffers. -/
def jobEnd (s : State) (j : Nat) : JobEnd :=
  let x := job s j
  if dOp x.dsc = 1 then runEncode s x else runDecode s x

/-- A job's output reaches its buffers and counts; it leaves its engine and takes a state. -/
def endJob (s : State) (j st : Nat) (r : JobEnd) : State :=
  let x := job s j
  let s1 := memPuts (memPuts s (dDst x.dsc) r.dst) (dChn x.dsc) r.chn
  let s2 := puts s1 [(CDC.DSTAT_STATE j, st), (CDC.DSTAT_ERR j, r.err), (CDC.DCONS_N j, r.cons), (CDC.DPRD0_N j, r.dst.length),
    (CDC.DPRD1_N j, r.chn.length), (CDC.DBITS_DB j, r.db), (CDC.DBITS_CB j, r.cb)]
  let s3 := setJob s2 j { x with eng := none, pos := r.pos, dec := r.dec }
  match x.eng with
  | some e => engRest s3 e
  | none => s3

/-- DDONE (R236, R237): the input of a running job is exhausted; with UPD its history goes into its context. -/
def execDdone (j : Nat) (s : State) : Host.Outcome State Fault Refusal :=
  if 16 ≤ j then .fault .noSuchUnit
  else
    let r := jobEnd s j
    if get s (CDC.DSTAT_STATE j) = 2 ∧ r.kind = 0 then
      let s3 := raise (writeBack (endJob s j 4 r) (job s j).dsc r.hist) pCDC 10
      .next (if get s CDC.DSEL_JOB = j then raise s3 pCDC 3 else s3)
    else .next s

/-- DSTOP (R236, R237): the output of a running job is full with no chain left. -/
def execDstop (j : Nat) (s : State) : Host.Outcome State Fault Refusal :=
  if 16 ≤ j then .fault .noSuchUnit
  else
    let r := jobEnd s j
    if get s (CDC.DSTAT_STATE j) = 2 ∧ r.kind = 1 then .next (raise (endJob s j 3 r) pCDC 11) else .next s

/-- DERR (R237, R251): a running job ends in ERROR: an uncorrectable CANVAS read, or the first R221 condition it meets. -/
def execDerr (j : Nat) (mem : MemRead) (s : State) : Host.Outcome State Fault Refusal :=
  if 16 ≤ j then .fault .noSuchUnit
  else if get s (CDC.DSTAT_STATE j) ≠ 2 then .next s
  else
    let s0 := memFound s mem
    if mem.unc ≠ [] then
      let s1 := jobError s0 j 9 true
      .next (match (job s j).eng with
        | some e => engRest s1 e
        | none => s1)
    else
      let r := jobEnd s0 j
      if r.kind = 2 then .next (raise (endJob s0 j 5 r) pCDC 12) else .next s0

/-! ### Page CDC under a write (R228, R239) -/

/-- The reasons a word of page CDC is rejected beyond the fields' own legal sets. -/
def violCDC (s img : State) (off : Nat) (w : Word) : List Viol :=
  if off = 0x40 then
    let op := wbits w 3 0
    let st := (engine s (wbits w 9 8)).st
    if op = 0 then []
    else if 2 < op then [(.range, off)]
    else viol (if op = 1 then st != stFAULT else st != stHOLD) .state off
  else if off = 0xA0 then violDcmd s img off w
  else if 0x400 ≤ off ∧ off < 0x800 then
    let k := (off - 0x400) / 4
    let c := get img CDC.NMSEL_CTX
    let h := get img CDC.NMSEL_HALF
    let m := c * 2 + h
    let i := 512 * h + 2 * k
    let bad (i v : Nat) : Bool := v != 0x3FF && (decide (784 ≤ i) || decide (i ≤ v))
    viol (bad i (wbits w 9 0) || bad (i + 1) (wbits w 25 16)) .range off ++
    viol ((chg s img (CDC.NMAP_ENA k m) || chg s img (CDC.NMAP_ENB k m)) && decide (2 ≤ cstate s c)) .state off
  else []

/-- The effect of an accepted CDCMD (R228). -/
def effCdcmd (s : State) (w : Word) : State :=
  let e := wbits w 9 8
  match wbits w 3 0 with
  | 1 => setEngine s e { st := stTEST, fromClear := true }
  | 2 => setEngine s e { st := stTEST }
  | _ => s

/-- What a committed burst on page CDC does beyond setting its fields: ECTL, where it is written. -/
def afterCDC (s : State) (ectl : Bool) : State := if ectl then forEach [0, 1, 2, 3] bypWrite s else s

/-- What the computed registers of page CDC read; PPROG and PPROGLIM show the job that DSEL names (R237). -/
def viewCDC (s : State) (off : Nat) : Option Nat :=
  let j := get s CDC.DSEL_JOB
  let d := (job s j).dsc
  let lim := (dNch d * dSlots d + 63) / 64
  let pos := min lim (jobProgress s j / 64 + if get s (CDC.DSTAT_STATE j) = 4 then 1 else 0)
  if off = 0x20 then
    some (if get s (CDC.DSTAT_STATE j) = 0 then 0 else (if lim = 0 then 100 else 100 * pos / lim) * 2 ^ 24 + pos)
  else if off = 0x24 then some lim
  else if off = 0x48 then some ([0, 1, 2, 3].map fun e => (engine s e).st * 16 ^ e).sum
  else if off = 0x5C then
    some (pack [(CDC.JOBS_DJOB, jobsHeld s), (CDC.JOBS_SJOB, (s.flights.filter fun f => f.eng.isSome).length)])
  else if off = 0xC0 then some (maskOf ((List.range 16).filter fun j => decide (3 ≤ get s (CDC.DSTAT_STATE j))))
  else none

end Sys2Proof.Machine
end

