-- ==== Sys2Proof/Machine/Cnv.lean ====
section
/-! DEFINITION. CANVAS (R240–R256): the codec's read side and release (R203, R205, R213–R214, R223–R227), retention, gap records and
checkpoints (R187–R191, R245–R249), scrub, and page CNV. -/

namespace Sys2Proof.Machine

/-! ### Segments (R240, R241) -/

/-- Words of a segment. -/
abbrev segWords : Nat := 16384

/-- Words of the reserve (R245). -/
abbrev reserveWords : Nat := 32768

/-- The first segment above retention. -/
def topSeg (s : State) : Nat := 65536 - get s CNV.WRES_N

/-- A segment's record. -/
def segAt (s : State) (k : Nat) : Seg := tget s.cnv.segs k {}

/-- Write a segment's record. -/
def setSeg (s : State) (k : Nat) (v : Seg) : State := { s with cnv := { s.cnv with segs := tset s.cnv.segs k v {} } }

/-- The class of a context's blocks: 1 HOLD-NEW, 2 OVERWRITE-OLDEST. -/
def classOf (s : State) (c : Nat) : Nat := if get s (STM.CCFG_FPOL c) = 1 then 2 else 1

/-- The segment a class fills. -/
def openSeg (s : State) (cls : Nat) : Option Nat := if cls = 2 then s.cnv.openO else s.cnv.openH

/-- Words left in the segment a class fills. -/
def openRoom (s : State) (cls : Nat) : Nat :=
  match openSeg s cls with
  | none => 0
  | some k => if (segAt s k).cls = cls then segWords - (segAt s k).used else 0

/-- Occupied retention segments. -/
def heldSegs (s : State) : Nat := (s.cnv.segs.filter fun e => e.2.cls = 1 || e.2.cls = 2).length

/-- Retention segments in all. -/
def allSegs (s : State) : Nat := 61440 - get s CNV.WRES_N

/-- Free retention segments. -/
def freeSegs (s : State) : Nat := allSegs s - heldSegs s

/-- Free retention words of a class: those of its open segment and of the segments it may take (R241, R247). -/
def freeWords (s : State) (cls : Nat) : Nat :=
  openRoom s cls + segWords * (freeSegs s - if cls = 2 then 0 else (s.cnv.segs.filter fun e => e.2.cls = 3).length)

/-- Whether a class may take a segment. -/
def mayTake (s : State) (cls k : Nat) : Bool :=
  decide (4096 ≤ k) && decide (k < topSeg s) && ((segAt s k).cls = 0 || (cls = 2 && (segAt s k).cls = 3))

/-- The lowest-numbered segment a class may take that follows its last one, wrapping from the top of retention to 4,096 (R241). A
class that has filled none begins at 4,096. -/
def nextSeg (s : State) (cls : Nat) : Option Nat :=
  let from_ (a : Nat) : List Nat := a :: ((s.cnv.segs.filter fun e => decide (a ≤ e.1)).map fun e => e.1 + 1)
  (from_ (match openSeg s cls with
    | some k => k + 1
    | none => 4096) ++ from_ 4096).find? (mayTake s cls)

/-- A class takes a segment. -/
def takeSeg (s : State) (cls k : Nat) : State :=
  let s1 := setSeg s k { cls := cls }
  if cls = 2 then { s1 with cnv := { s1.cnv with openO := some k, written := s1.cnv.written ++ [k] } }
  else { s1 with cnv := { s1.cnv with openH := some k } }

/-- Lay `n` words out in the word stream of a class: (byte address, words) in order. The first number bounds the segments used. -/
def layOut (cls : Nat) : Nat → State → Nat → List (Nat × Nat) × State
  | 0, s, _ => ([], s)
  | f + 1, s, n =>
    if n = 0 then ([], s)
    else
      let room := openRoom s cls
      match (if room = 0 then none else openSeg s cls) with
      | some k =>
        let u := segAt s k
        let m := min room n
        let r := layOut cls f (setSeg s k { u with used := u.used + m }) (n - m)
        ((k * 65536 + 4 * u.used, m) :: r.1, r.2)
      | none =>
        match nextSeg s cls with
        | none => ([], s)
        | some k => layOut cls f (takeSeg s cls k) n

/-- Write words at the places laid out for them. -/
def writePieces (s : State) : List (Nat × Nat) → List Word → State
  | [], _ => s
  | p :: t, ws => writePieces (memPuts s p.1 (ws.take p.2)) t (ws.drop p.2)

/-- The words of a retained block as CANVAS holds them. -/
def blkWords (s : State) (b : RBlk) : List Word := b.pieces.flatMap fun p => memWords s p.1 p.2

/-- Whether a block has a word in a segment. -/
def RBlk.inSeg (b : RBlk) (k : Nat) : Bool := b.pieces.any fun p => p.1 / 65536 = k

/-- The unacknowledged blocks of a context, oldest first. -/
def unacked (s : State) (c : Nat) : List RBlk := s.cnv.blocks.filter fun b => b.ctx = c && !b.acked && !b.gone

/-! ### Fill (R245, R248) -/

/-- FILL.PCT. -/
def fillPct (s : State) : Nat := 100 * heldSegs s / allSegs s

/-- A fill notice at `hi` percent, armed again below `lo`. -/
def fillNotice (s : State) (armed : Bool) (hi lo ev : Nat) (set : CnvSt → Bool → CnvSt) : State :=
  let p := fillPct s
  if armed ∧ hi ≤ p then raise { s with cnv := set s.cnv false } pCNV ev
  else if p < lo then { s with cnv := set s.cnv true }
  else s

/-- Bring the fill notices to the present fill. -/
def fillEvents (s : State) : State :=
  let s1 := fillNotice s s.cnv.arm75 75 70 8 fun x b => { x with arm75 := b }
  let s2 := fillNotice s1 s1.cnv.arm95 95 90 9 fun x b => { x with arm95 := b }
  if fillPct s2 < 95 then { s2 with cnv := { s2.cnv with armFull := true } } else s2

/-- The first decline or overwrite since retention was last below 95 % raises FULL (R245). -/
def noteFull (s : State) : State :=
  if s.cnv.armFull then raise { s with cnv := { s.cnv with armFull := false } } pCNV 10 else s

/-! ### Storing one block (R184, R187, R188, R241, R242) -/

/-- The times and slots the index keeps of a block. -/
structure BlkInfo where
  slots : Nat
  t : Nat
  tlast : Nat
  deriving DecidableEq, Repr

/-- Whether CANVAS takes blocks: PD_CNV is on and CNV is IDLE or RUN (R255). -/
def cnvUp (s : State) : Bool := domainOn s 13 && (pstate s pCNV = stIDLE || pstate s pCNV = stRUN)

/-- The bytes of "GL768-STREAM". -/
def streamInfo : List Nat := [71, 76, 55, 54, 56, 45, 83, 84, 82, 69, 65, 77]

/-- The stream key of a context in its key generation (R22, R363): HKDF over the stream secret, the serial number, POS, UNIT, context and
generation. -/
def streamKey (s : State) (c : Nat) (secret : List Word) : List Word :=
  let g := get s (STM.CKGEN_GEN c)
  exactly 8 (Config.hkdf (exactly 12 secret) [wd (get s DEV.SERHI_SER), wd (get s DEV.SERLO_SER)]
    (streamInfo ++ [get s DOM.DPOS_POS, unitCode s, c, g / 2 ^ 24 % 256, g / 2 ^ 16 % 256, g / 256 % 256, g % 256]))

/-- The nonce of a block (R187): KGEN, W0 with bits [31:20] 0, and SEQ. -/
def blkNonce (s : State) (c : Nat) (ws : List Word) : List Word := [wd (get s (STM.CKGEN_GEN c)), hdr ws 0 &&& 0x000FFFFF#32, hdr ws 1]

/-- Store a block of a context: `ws` are its words up to the chain value, with W1 still open. It takes the next number; the chain value
follows if METRO, and the tag. A number that passes through 0 starts a key generation. -/
def putBlk (s : State) (c : Nat) (ws0 : List Word) (metro : Bool) (i : BlkInfo) : State :=
  let x := ctx s c
  let seq := get s (STM.CSEQ_SEQ c)
  let ws := ws0.set 1 (wd seq)
  let chain := if metro then exactly 4 (Config.sha384 (ws ++ exactly 4 x.chain)) else []
  let tag := exactly 4 (Config.gmac (streamKey s c x.secret) (blkNonce s c ws) (ws ++ chain ++ exactly 4 (if x.ckDue then [] else x.tag)))
  let all := ws ++ chain ++ tag
  let cls := classOf s c
  let r := layOut cls (2 * (all.length / segWords + 2)) s all.length
  let s1 := writePieces r.2 r.1 all
  let b : RBlk := { ctx := c, seq := seq, cls := cls, pieces := r.1, len := all.length, slots := i.slots, t := i.t, tlast := i.tlast, tag := tag
                    w5 := (hdr ws 5).toNat, chans := wbits (hdr ws 6) 15 0, path := wbits (hdr ws 0) 6 6 }
  let s2 := { s1 with cnv := { s1.cnv with blocks := s1.cnv.blocks ++ [b] } }
  let s3 := setCtx s2 c { x with tag := tag, chain := if metro then chain else x.chain, sinceCk := x.sinceCk + 1, blkMk := x.blkMk + 1,
                                 newest := some seq }
  let s4 := bumpMod s3 (STM.CSEQ_SEQ c)
  refreshStream (fillEvents (if get s4 (STM.CSEQ_SEQ c) = 0 then newKeyGen s4 c else s4))

/-- The time flags at present (R181). -/
def frnNow (s : State) : Bool := flag s TSU.TSTAT_FRN
def islNow (s : State) : Bool := get s DOM.DROLE_AUTH = 3

/-! ### Gap records (R189) -/

/-- Words of a stored gap record. -/
abbrev gapLen : Nat := 24

/-- The words of a gap record before its tag. -/
def gapWords (s : State) (c : Nat) (g : GapRec) : List Word :=
  [headOf s 0xA3 g.path c, 0#32] ++ timeWords g.t (frnNow s) (islNow s) ++
    [wd g.w5, wd (min g.slots 65535 * 65536 + g.chans), wd (12 * 65536),
      wd (g.reason * 2 ^ 24), wd g.p1, wd g.p2, wd (g.slots / 2 ^ 32), wd g.slots] ++
    timeWords g.tlast (frnNow s) (islNow s) ++ exactly 4 g.tag

/-- Store a gap record; the next data block carries GAP. -/
def putGap (s : State) (c : Nat) (g : GapRec) : State :=
  let s1 := putBlk s c (gapWords s c g) false ⟨0, g.t, g.tlast⟩
  raise (bumpSat (setCtx s1 c { ctx s1 c with gapNext := true }) (STM.CGAP_N c)) pSTM 11

/-! ### Checkpoints (R190, R191, R165) -/

/-- Words of a stored device checkpoint, and of a metrology checkpoint with its chain value. -/
abbrev ckLen (metro : Bool) : Nat := if metro then 76 else 72

/-- Words P0–P35 of a checkpoint. -/
def ckPayload (s : State) (c : Nat) (metro : Bool) : List Word :=
  let x := ctx s c
  let e7 := match s.mtr.audit with
    | a :: _ => a.e.getD 7 0#32
    | [] => 0#32
  [wd ((if metro then 2 else 1) * 2 ^ 24), wd (get s (STM.CKGEN_GEN c)), wd (if metro then x.blkMk else x.sinceCk),
    wd (get s MTR.EVCNT_CNT)] ++ exactly 4 (if metro then x.chain else x.tag) ++
    (if metro then (List.range 12).map (fun k => wd (get s (MTR.PDIG k))) ++ (List.range 12).map (fun k => wd (get s (MTR.SWDIG k))) ++ [e7]
      else List.replicate 25 0#32) ++ List.replicate 3 0#32

/-- The words of a checkpoint before its chain value and tag: header, P0–P35 and the signature by the device key (0) or the metrology
key (1). -/
def ckWords (s : State) (c : Nat) (metro : Bool) : List Word :=
  let ws := [headW0 s 0xA4 c, wd (get s (STM.CSEQ_SEQ c))] ++ timeWords (now16 s) (frnNow s) (islNow s) ++
    [0#32, wd (65536 + get s (STM.CSTAT_NCH c)), wd (60 * 65536 + metro.toNat * 4096)] ++ ckPayload s c metro
  ws ++ exactly 24 (Config.signature metro.toNat (exactly 12 (Config.sha384 ws)))

/-- Store a device checkpoint, if it fits the reserve; otherwise it waits (R245). -/
def putCk (s : State) (c : Nat) : State :=
  if cnvUp s ∧ ckLen false ≤ freeWords s (classOf s c) then
    let s0 := setCtx s c { ctx s c with ckLate := false }
    let s1 := putBlk s0 c (ckWords s c false) false ⟨0, now16 s, now16 s⟩
    setCtx s1 c { ctx s1 c with sinceCk := 0, ckDue := decide (get s1 (STM.CSEQ_SEQ c) = 0) }
  else setCtx s c { ctx s c with ckLate := true }

/-- Whether MTP runs (R165, R352). -/
def mtpRuns (s : State) : Bool := get s (MGT.PRST_ST 1) = 2

/-- Whether a device checkpoint is due (R191). -/
def ckIsDue (s : State) (c : Nat) : Bool :=
  (ctx s c).ckDue || (ctx s c).ckLate || decide (65536 ≤ (ctx s c).sinceCk)

/-- Store a metrology checkpoint while MTP runs, if it fits the reserve. A device checkpoint that is due goes first (R187, R191); where
that one does not fit, this one waits too. -/
def putMk (s0 : State) (c : Nat) : State :=
  let s := if mtpRuns s0 ∧ ckIsDue s0 c then putCk s0 c else s0
  if cnvUp s ∧ mtpRuns s ∧ !ckIsDue s c ∧ ckLen true ≤ freeWords s (classOf s c) then
    let s1 := putBlk s c (ckWords s c true) true ⟨0, now16 s, now16 s⟩
    bumpMod (setCtx s1 c { ctx s1 c with sinceMk := 0, blkMk := 0, mkDue := none }) MTR.CKCNT_N
  else s

/-- Whether a block of the context that begins before `t` is still on its way to CANVAS. -/
def pipeBefore (s : State) (c t : Nat) : Bool :=
  (ctx s c).closed.any (fun b => b.slots.any fun x => decide (x.t < t)) ||
    (queue s c).items.any (fun it => decide (hdrTime it.ws < t)) ||
    s.flights.any fun f => f.item.ctx = c && decide (hdrTime f.item.ws < t)

/-- Whether a metrology checkpoint is due at the boundary before a block that begins at `t` (R165). -/
def mkIsDue (s : State) (c t : Nat) : Bool :=
  decide (4096 ≤ (ctx s c).sinceMk) || (match (ctx s c).mkDue with
    | some b => decide (b ≤ t)
    | none => false)

/-- A metrology checkpoint at a transition goes out once no block from before it is on its way. -/
def tryMk (s : State) (c : Nat) : State :=
  match (ctx s c).mkDue with
  | some b => if pipeBefore s c b then s else putMk s c
  | none => s

/-- A transition into or out of the SEALED interval at domain time: every METRO context closes its block, and a checkpoint is due
(R163, R164, R165, R169, R170). -/
def mkTransition (s : State) : State :=
  forEach ((List.range 64).filter fun c => isMctx s c && cstate s c != stOFF) (fun s c =>
    let s1 := closeBlock s c false
    tryMk (setCtx s1 c { ctx s1 c with mkDue := some (now16 s) }) c) s

/-! ### Admission (R223, R245–R247) -/

/-- Whether a record that waits goes out before a data block that begins at `t`, or with no block at hand: the record of a schedule or
assembler FAULT stands after every block of the slots before its gap (R175, R181, R189). -/
def gapReady (s : State) (c : Nat) (t : Option Nat) (g : GapRec) : Bool :=
  decide (g.reason < 4) || (!pipeBefore s c g.t && t.all fun b => decide (g.t ≤ b))

/-- Store the waiting records of a context that are due, in order, as far as they fit the reserve. -/
def putWaits (c : Nat) (t : Option Nat) : Nat → State → State
  | 0, s => s
  | f + 1, s =>
    match (ctx s c).wait.find? (gapReady s c t) with
    | none => s
    | some g =>
      let s1 := if ckIsDue s c then putCk s c else s
      if cnvUp s1 ∧ !(ctx s1 c).ckDue ∧ !(ctx s1 c).ckLate ∧ gapLen ≤ freeWords s1 (classOf s1 c) then
        putWaits c t f (putGap (setCtx s1 c { ctx s1 c with wait := (ctx s1 c).wait.erase g }) c g)
      else s1

/-- What goes out before a data block that begins at `t`: a new key generation of STREAM (R363) starts, due checkpoints, the device's first (R191), and waiting records. -/
def preBlock (s : State) (c t : Nat) : State :=
  let s0 := match (ctx s c).keyDue with
    | some b => if b ≤ t then newKeyGen s c else s
    | none => s
  let s1 := if ckIsDue s0 c then putCk s0 c else s0
  let s2 := if mkIsDue s1 c t then putMk s1 c else s1
  putWaits c (some t) (ctx s2 c).wait.length s2

/-- Whether something waits that must precede the context's data block that begins at `t`: a checkpoint or a record that does not fit
(R245). A metrology checkpoint that waits for MTP holds no block back (R165). -/
def owes (s : State) (c t : Nat) : Bool :=
  (ctx s c).ckDue || (ctx s c).ckLate || (ctx s c).wait.any (gapReady s c (some t)) || (mtpRuns s && mkIsDue s c t)

/-- Whether retention takes a data block of `n` words that begins at `t` (R245). -/
def fits (s : State) (c n t : Nat) : Bool := cnvUp s && !owes s c t && decide (n + reserveWords ≤ freeWords s (classOf s c))

/-- The oldest written class-O segment that is not the open one (R247). -/
def victim (s : State) : Option Nat :=
  s.cnv.written.find? fun k => !(s.cnv.openO = some k && decide ((segAt s k).used < segWords))

/-- The record of the blocks a context gives up (R182, R247): its times, period, channel count and path are those of the data blocks among
them. -/
def lostRec (s : State) (c reason : Nat) (l : List RBlk) : GapRec :=
  let d := l.filter fun b => decide (0 < b.slots)
  let a := if d.isEmpty then l.head? else d.head?
  let z := if d.isEmpty then l.getLast? else d.getLast?
  { gapFor s c reason ((a.map (·.t)).getD 0) ((a.map (·.w5)).getD 0) with
    slots := (l.map (·.slots)).sum, p2 := l.length, p1 := (l.head?.map (·.seq)).getD 0, tlast := (z.map (·.tlast)).getD 0
    tag := (l.getLast?.map (·.tag)).getD [], chans := (a.map (·.chans)).getD 0, path := (a.map (·.path)).getD 0 }

/-- Take a segment's words from the blocks that have some there: an unacknowledged block is given up whole. -/
def stripSeg (k : Nat) (l : List RBlk) : List RBlk :=
  (l.map fun b => if b.inSeg k then { b with gone := true, pieces := b.pieces.filter fun p => p.1 / 65536 != k } else b).filter
    fun b => !b.pieces.isEmpty

/-- Overwrite a class-O segment: its blocks are given up, and each context that loses some stores its record at once. -/
def overwrite (s : State) (k : Nat) : State :=
  let lost (c : Nat) : List RBlk := (unacked s c).filter (·.inSeg k)
  let s1 := setSeg { s with cnv := { s.cnv with blocks := stripSeg k s.cnv.blocks, written := s.cnv.written.filter (· != k) } } k { cls := 3 }
  let s2 := noteFull (bumpMod s1 CNV.NOVWR_N)
  forEach ((List.range 64).filter fun c => !(lost c).isEmpty) (fun s c =>
    putWaits c none ((ctx s c).wait.length + 1) (setCtx s c { ctx s c with wait := (ctx s c).wait ++ [lostRec s c 2 (lost c)] })) s2

/-- Overwrite until a block of `n` words fits, or nothing is left to overwrite. -/
def makeRoom (c n t : Nat) : Nat → State → State
  | 0, s => s
  | f + 1, s =>
    if fits s c n t then s
    else match victim s with
      | none => s
      | some k => makeRoom c n t f (preBlock (overwrite s k) c t)

/-- A declined block extends the context's declined run (R246). -/
def decline (s : State) (c : Nat) (ws : List Word) : State :=
  let x := ctx s c
  let g := x.decl.getD { gapFor s c 1 (hdrTime ws) (hdr ws 5).toNat with chans := wbits (hdr ws 6) 15 0, path := wbits (hdr ws 0) 6 6 }
  noteFull (bumpMod (setCtx s c { x with decl := some { g with slots := g.slots + hdrSlots ws, tlast := hdrLast ws } }) CNV.NDECL_N)

/-- The declined run of a context ends: its record waits. -/
def endDecl (s : State) (c : Nat) : State :=
  let x := ctx s c
  match x.decl with
  | none => s
  | some g => setCtx s c { x with decl := none, wait := x.wait ++ [g] }

/-! ### The read side (R203, R205, R227) -/

/-- The words of the item of context queue `c` as the read side delivers them, and the state after the failing ones are counted. -/
def readItem (s : State) (c : Nat) (it : QItem) (bad : List Nat) : List Word × State :=
  (it.ws.zipIdx).foldl (fun a p =>
    let b := bad.contains p.2
    let r := readBad a.2 it p.2 b
    (a.1 ++ [poisonWord it p.2 b (bad.contains (p.2 - 1) && decide (it.pay < p.2)) r.1], if b then parityFail r.2 c else r.2)) ([], s)

/-- Whether an item could be compressed (R213): its context has AFX and runs, it carries sample words, and none of its words failed. -/
def eligible (s : State) (it : QItem) (psn : Bool) : Bool :=
  flag s (STM.CCFG_AFX it.ctx) && it.type = 0xA1 && !psn && cstate s it.ctx = stRUN

/-- Whether an item goes to an engine rather than to the plain path (R203, R213, R227): CDC runs, its queue is below the plain-path mark,
and some engine serves. -/
def wantsEngine (s : State) (it : QItem) (psn : Bool) : Bool :=
  eligible s it psn && pstate s pCDC = stRUN && !flag s (QUE.QSTAT_BYP it.ctx) && anyServes s

/-- Whether the scheduler passes over a context (R227): it has a block in an engine, or its item waits for a job slot. -/
def passedOver (s : State) (c : Nat) : Bool :=
  (s.flights.any fun f => f.item.ctx = c && f.eng.isSome) ||
    ((queue s c).items.head?.any fun it => wantsEngine s it false) && (pickEngine s).isNone

/-- The context whose item the scheduler takes next (R227): in the order their notices were posted. -/
def nextTaken (s : State) : Option Nat := s.notices.find? fun c => !passedOver s c

/-- ITEM_TAKE (R205, R213, R227): the oldest item of the context whose notice comes first goes to an engine, or to the plain path; out of
turn nothing happens. While CDC is OFF every item passes plain. -/
def execItemTake (c : Nat) (bad : List Nat) (s : State) : Host.Outcome State Fault Refusal :=
  if 64 ≤ c then .fault .noSuchUnit
  else match (queue s c).items with
    | [] => .next s
    | it :: rest =>
      if !domainOn s 12 ∨ nextTaken s ≠ some c then .next s
      else
        let psn := bad.any fun k => decide (k < it.ws.length)
        let r := readItem s c it bad
        let eng := if wantsEngine s it psn then pickEngine s else none
        let s1 := { r.2 with notices := r.2.notices.erase c
                             flights := r.2.flights ++ [⟨{ it with ws := r.1 }, eng, psn, eng.isSome, eligible s it psn⟩] }
        let s2 := match eng with
          | none => s1
          | some e => put (setEngSt s1 e stRUN) CDC.INW_N (get s1 CDC.INW_N + wbits (hdr it.ws 7) 31 16)
        .next (refreshQueue (setQueue s2 c { queue s2 c with items := rest }) c)

/-! ### Release (R213, R214, R223–R226, R241) -/

/-- Remove the first flight of a context. -/
def dropFlight (c : Nat) : List Flight → List Flight
  | [] => []
  | f :: t => if f.item.ctx = c then t else f :: dropFlight c t

/-- A released data block before CANVAS numbers it: its words, where their payload begins (R198), the payload it carries, its original payload, and its codec
marks. -/
structure Release where
  c : Nat
  ws : List Word
  at_ : Nat
  pay : List Word
  orig : List Word
  comp : Bool
  rst : Bool
  psn : Bool
  hist : List Hist
  deriving DecidableEq, Repr

/-- Whether MTR is within a SEALED interval (R165). -/
def sealOn (s : State) : Bool := s.mtr.seals.head?.any fun x => x.2.isNone

/-- Whether a METRO context's block lies wholly within one SEALED interval (R165). -/
def metroBlk (s : State) (c : Nat) (ws : List Word) : Bool :=
  isMctx s c && s.mtr.seals.any fun x => decide (x.1 ≤ hdrTime ws) && x.2.all fun e => decide (hdrLast ws < e)

/-- Whether a data block of the context carries CHK (R226). -/
def chkNow (s : State) (c : Nat) : Bool :=
  flag s (STM.CCFG_CHKF c) || decide (0 < (ctx s c).chk) || (ctxBanks s c).any fun n => bstate s n = stTEST

/-- The words of a released block up to its chain value (R181, R186). -/
def releaseWords (s : State) (r : Release) : List Word :=
  let chk := chkNow s r.c
  let w7 := r.pay.length * 65536 + (wbits (hdr r.ws 7) 15 15) * 32768 + r.rst.toNat * 16384 + chk.toNat * 8192 +
    (metroBlk s r.c r.ws).toNat * 4096 + (ctx s r.c).gapNext.toNat * 2048 + r.psn.toNat * 1024 + wbits (hdr r.ws 7) 9 9 * 512
  let w0 := if r.comp then (hdr r.ws 0 &&& 0x00FFFFFF#32) ||| 0xA2000000#32 else hdr r.ws 0
  ((r.ws.take r.at_).set 0 w0).set 7 (wd w7) ++ r.pay ++ (if chk then [crc32c r.orig] else [])

/-- What an admitted data block does to its context's codec state (R223, R224, R226). -/
def advanceCodec (s : State) (r : Release) (metro : Bool) : State :=
  let x := ctx s r.c
  let x1 := { x with gapNext := false, chk := x.chk - 1, sinceMk := x.sinceMk + metro.toNat }
  setCtx s r.c
    (if r.comp then { x1 with nch := r.hist.length, hist := (r.hist.zipIdx).foldl (fun t p => tset t p.2 p.1 {}) []
                              comp := if r.rst then 1 else x.comp + 1, restart := false }
    else if r.rst then { x1 with hist := x.hist.foldl (fun t p => tset t p.1 p.2.clear {}) [], restart := true, comp := 0 }
    else x1)

/-- CANVAS admits or declines a released block and stores it (R241, R245–R247). -/
def takeInSegment (s : State) (r : Release) : State :=
  let c := r.c
  let t := hdrTime r.ws
  let s1 := preBlock s c t
  let n := (releaseWords s1 r).length + 4 + if metroBlk s c r.ws then 4 else 0
  let s2 := if classOf s c = 2 ∧ cnvUp s then makeRoom c n t (s1.cnv.written.length) s1 else s1
  if fits s2 c n t then
    let s3 := preBlock (endDecl s2 c) c t
    let metro := metroBlk s3 c r.ws
    let s4 := putBlk s3 c (releaseWords s3 r) metro ⟨hdrSlots r.ws, t, hdrLast r.ws⟩
    tryMk (advanceCodec s4 r metro) c
  else tryMk (decline s2 c r.ws) c

/-- What the codec makes of an item it releases: the AFX payload where it is shorter, verified, and its context is in RUN (R213), or the plain
one. -/
def releaseOf (s : State) (f : Flight) (mismatch : Bool) : Release :=
  let c := f.item.ctx
  let x := ctx s c
  let ws := f.item.ws
  let pay := ws.drop f.item.pay
  let tko := bit (hdr ws 7).toNat 15
  let rst := x.restart || get s (STM.CCFG_FPOL c) = 1 || decide (get s CDC.RSTPER_N ≤ x.comp) || tko
  let nch := wbits (hdr ws 6) 9 0
  let e := encode nch (nmapOf s c) rst ((List.range nch).map (histOf x)) (slotsOf nch (hdrSlots ws) pay)
  let comp := f.eng.isSome && cstate s c = stRUN && !mismatch && decide (e.payload.length < pay.length)
  { c := c, ws := ws, at_ := f.item.pay, pay := if comp then e.payload else pay, orig := pay, comp := comp, rst := if comp then rst else tko, psn := f.psn
    hist := e.hist }

/-- An engine's selection sets SPREV and KPREV of its block's channels, whatever becomes of the block (R222). -/
def keepChoice (s : State) (c : Nat) (hs : List Hist) : State :=
  let x := ctx s c
  setCtx s c { x with hist := (hs.zipIdx).foldl (fun t p => tset t p.2 { histOf x p.2 with sprev := p.1.sprev, kprev := p.1.kprev } {}) x.hist }

/-- A mismatch of the verifying decode (R225). -/
def verifyFail (s : State) (c e : Nat) : State :=
  engMismatch (openChk (raise (bumpSat s CDC.VFCNT_N) pCDC 8) c) e

/-- BLOCK_RELEASE (R213, R225, R241): the oldest item of a context in the codec leaves it. -/
def execBlockRelease (c : Nat) (mismatch : Bool) (s : State) : Host.Outcome State Fault Refusal :=
  if 64 ≤ c then .fault .noSuchUnit
  else match s.flights.find? fun f => f.item.ctx = c with
    | none => .next s
    | some f =>
      let r := releaseOf s f mismatch
      let s1 := { s with flights := dropFlight c s.flights }
      let s2 := match f.eng with
        | none => s1
        | some e => engRest (if mismatch then verifyFail (keepChoice s1 c r.hist) c e else keepChoice s1 c r.hist) e
      let s3 := if f.taken then put s2 CDC.OUTW_N (get s2 CDC.OUTW_N + r.pay.length) else s2
      let s4 := if f.elig ∧ cstate s c = stRUN ∧ !r.comp then bumpMod s3 CDC.PLNCNT_N else s3
      .next (refreshStream (takeInSegment s4 r))

/-! ### Checkpoints and records on their own -/

/-- DEVICE_CHECKPOINT (R191): a context's device checkpoint falls due. -/
def execDeviceCheckpoint (c : Nat) (s : State) : Host.Outcome State Fault Refusal :=
  if 64 ≤ c then .fault .noSuchUnit else if cstate s c = stOFF then .next s else .next (putCk s c)

/-- METRO_CHECKPOINT (R165): a METRO context's checkpoint falls due, or is emitted when MTP runs again. One that does not fit stays due
(R245). -/
def execMetroCheckpoint (c : Nat) (s : State) : Host.Outcome State Fault Refusal :=
  if 64 ≤ c then .fault .noSuchUnit
  else if isMctx s c ∧ cstate s c ≠ stOFF ∧ sealOn s then
    .next (putMk (setCtx s c { ctx s c with mkDue := some 0 }) c)
  else .next (tryMk s c)

/-- GAP_RECORD_STORE (R246, R247, R249): the waiting records of a context are stored as far as they fit; a declined run of a context
that has left RUN and has no block on its way ends. -/
def execGapRecordStore (c : Nat) (s : State) : Host.Outcome State Fault Refusal :=
  if 64 ≤ c then .fault .noSuchUnit
  else
    let ended := cstate s c != stRUN && (ctx s c).closed.isEmpty && (queue s c).items.isEmpty && !(s.flights.any fun f => f.item.ctx = c)
    let s1 := if ended then endDecl s c else s
    .next (putWaits c none (ctx s1 c).wait.length s1)

/-! ### Acknowledgement (R243, R244) -/

/-- An acknowledgement beyond the stored range is ignored. -/
def ackIgnored (s : State) : State := raise (bumpSat s CNV.ACKIGN_N) pCNV 12

/-- Whether every block with a word in a segment is acknowledged. -/
def segCovered (s : State) (k : Nat) : Bool := s.cnv.blocks.all fun b => !b.inSeg k || b.acked

/-- Release the segments that acknowledgements cover. -/
def releaseSegs (s : State) : State :=
  let freed := (s.cnv.segs.filter fun e => (e.2.cls = 1 || e.2.cls = 2) && segCovered s e.1).map (·.1)
  refreshStream (fillEvents { s with cnv := { s.cnv with
    segs := s.cnv.segs.filter fun e => !freed.contains e.1
    written := s.cnv.written.filter fun k => !freed.contains k
    blocks := s.cnv.blocks.filter fun b => !(b.pieces.any fun p => freed.contains (p.1 / 65536)) } })

/-- Whether sequence number a is not newer than b, and how R185 orders them: the distance from a up to b. -/
def seqBack (a b : Nat) : Nat := (b + 2 ^ 32 - a) % 2 ^ 32

/-- Acknowledge a context up to `a`. -/
def ackCtx (s : State) (c a : Nat) : State :=
  let x := ctx s c
  match x.newest with
  | none => ackIgnored s
  | some n =>
    if 2 ^ 31 ≤ seqBack a n then ackIgnored s
    else if (match x.acked with
      | some b => decide (seqBack a b < 2 ^ 31)
      | none => false) then s
    else
      let mark (b : RBlk) : RBlk := if b.ctx = c ∧ seqBack b.seq a < 2 ^ 31 then { b with acked := true } else b
      let got := (unacked s c).filter fun b => seqBack b.seq a < 2 ^ 31
      let s1 := setCtx s c { x with acked := some a, ackT := (got.map (·.tlast)).foldl max x.ackT }
      releaseSegs { s1 with cnv := { s1.cnv with blocks := s1.cnv.blocks.map mark } }

/-! ### Power loss and FAULT (R249, R255) -/

/-- The records of a context after CANVAS has lost its contents, in slot order: reason 3 for the unacknowledged range, those that waited to
be stored after it, and reason 1 for an open declined run. -/
def lossRecs (s : State) (c : Nat) : List GapRec :=
  let l := unacked s c
  (if l.isEmpty then [] else [lostRec s c 3 l]) ++ (ctx s c).wait ++ (ctx s c).decl.toList

/-- CANVAS loses its contents: every context is left with its records, and its next data block carries GAP. -/
def cnvLoss (s : State) : State :=
  let s1 := forEach ((List.range 64).filter fun c => !(lossRecs s c).isEmpty) (fun s c =>
    setCtx s c { ctx s c with decl := none, wait := lossRecs s c }) s
  refreshStream { s1 with cnv := {} }

/-- CANVAS_FAULT (R255): the index is uncorrectable in both copies, or a device fails. -/
def execCanvasFault (s : State) : Host.Outcome State Fault Refusal :=
  if pstate s pCNV = stIDLE ∨ pstate s pCNV = stRUN then .next (setPState s pCNV stFAULT) else .next s

/-! ### Scrub (R251) -/

/-- SCRUB (R251): the next segment of the pass is read; a pass that has ended starts anew. What the ring, the work window and jobs that
complete have found in their reads since the last SCRUB comes with it, also while the scrub is off (DESIGN CHOICE, log entry 125). -/
def execScrub (corr : Nat) (unc : List Nat) (s : State) : Host.Outcome State Fault Refusal :=
  if domainOn s 13 ∧ pstate s pCNV ≠ stOFF then
    let s1 := memFound s ⟨corr, unc⟩
    if flag s CNV.SCRUB_EN then
      let s2 := if get s1 (hLIM pCNV) = 65536 ∧ get s1 (hPOS pCNV) < 65536 then s1 else progStart s1 pCNV 65536
      .next (progAt s2 pCNV (get s2 (hPOS pCNV) + 1))
    else .next s1
  else .next s

/-! ### Page CNV (R252, R256) -/

/-- Byte address of word `off` of the work window. -/
def wwinAddr (s : State) (off : Nat) : Nat := get s CNV.WADDR_ADDR * 1024 + (off - 0x400)

/-- Whether the work window lies outside the work segments. -/
def wwinOut (s : State) : Bool := decide (get s CNV.WADDR_ADDR * 1024 < workBase s)

/-- The reasons a word of page CNV is rejected beyond the fields' own legal sets. -/
def violCNV (s img : State) (off : Nat) : List Viol :=
  if off = 0x48 ∧ chg s img CNV.WRES_N then
    let a := min (get s CNV.WRES_N) (get img CNV.WRES_N)
    let b := max (get s CNV.WRES_N) (get img CNV.WRES_N)
    viol ((s.cnv.segs.any fun e => (e.2.cls = 1 || e.2.cls = 2) && decide (65536 - b ≤ e.1) && decide (e.1 < 65536 - a)) ||
      decide (0 < jobsHeld s)) .state off
  else if 0x400 ≤ off ∧ off < 0x800 then viol (wwinOut img) .range off
  else []

/-- What a committed burst on page CNV does beyond setting its fields: a segment that leaves retention is free for nothing else. -/
def afterCNV (s : State) : State :=
  fillEvents { s with cnv := { s.cnv with segs := s.cnv.segs.filter fun e => !(e.2.cls = 3 && decide (topSeg s ≤ e.1)) } }

/-- Words of the reserve in use: those the free retention words fall short of it. -/
def reserveUsed (s : State) : Nat := reserveWords - (openRoom s 1 + openRoom s 2 + segWords * freeSegs s)

/-- Segments that hold unacknowledged blocks of a context. -/
def ctxSegs (s : State) (c : Nat) : Nat := (s.cnv.segs.filter fun e => (unacked s c).any (·.inSeg e.1)).length

/-- What the computed registers of page CNV read. -/
def viewCNV (s : State) (off : Nat) : Option Nat :=
  let c := get s CNV.ASEL_CTX
  let newest := (ctx s c).newest.getD 0
  if off = 0x40 then some (pack [(CNV.FILL_PCT, fillPct s), (CNV.FILL_SEGS, heldSegs s)])
  else if off = 0x44 then some (freeSegs s)
  else if off = 0x6C then some (reserveUsed s)
  else if off = 0x74 then some (((unacked s c).head?.map (·.seq)).getD newest)
  else if off = 0x78 then some newest
  else if off = 0x7C then some (pack [(CNV.ASTAT_DECL c, (ctx s c).decl.isSome.toNat), (CNV.ASTAT_SEGS c, ctxSegs s c)])
  else if 0x400 ≤ off ∧ off < 0x800 then some (memWord s (wwinAddr s off)).toNat
  else none

end Sys2Proof.Machine
end

