-- ==== Sys2Proof/Machine/Mtr.lean ====
section
/-! DEFINITION. MUSLIN, the sealed partition (R159–R172): the legally relevant fields, sealing, the event counter and its audit trail,
self-checks, and page MTR. -/

namespace Sys2Proof.Machine

/-! ### Who writes (R25, R167) -/

/-- The role a transaction is executed with: its session's; MGP firmware has OWNER's access (DESIGN CHOICE). -/
def srcRole (s : State) : Src → Option Role
  | .mgp => some .owner
  | .forged _ => none
  | .session sid _ => (session s sid).map (·.role)
  | .token sid _ => (session s sid).map (·.role)

/-- The role code of E4. -/
def Role.code : Role → Nat
  | .owner => 0 | .operator => 1 | .observer => 2 | .service => 3

/-- The role field of E4 for a source. -/
def roleField (s : State) : Src → Nat
  | .mgp => 0xF
  | .forged _ => 0xF
  | .token _ _ => 0xF
  | .session sid _ => match session s sid with
    | some x => Role.code x.role
    | none => 0xF

/-! ### Legally relevant fields (R160, R161) -/

/-- The designated banks, rising. -/
def desBanks (s : State) : List Nat := (List.range 49).filter (designated s)

/-- The offsets of a bank's legally relevant registers: XCTL, FRESP, SPARE, QCFG, CHCFG, CALGN, CALOF. -/
def legalOff (o : Nat) : Bool :=
  o = 0x44 || o = 0x48 || o = 0x4C || (decide (0x60 ≤ o) && decide (o < 0x70)) || (decide (0xC0 ≤ o) && decide (o < 0x180))

/-- The writable fields of a register at an instance. -/
def rwFlds (page idx : Nat) (r : RegDef) : List Fld :=
  (r.fields.filter fun f => f.ty = .rw || f.ty = .rwl).map (fldOf page r.off idx)

/-- Insert a field into a list that rises by offset, after those of its own offset. -/
def insertOff (f : Fld) : List Fld → List Fld
  | [] => [f]
  | g :: t => if f.off < g.off then f :: g :: t else g :: insertOff f t

/-- Fields in ascending order of offset. -/
def sortOff (l : List Fld) : List Fld := l.foldl (fun a f => insertOff f a) []

/-- The legally relevant fields of OPT: PCFG, PSET, PMFS, OPLIM and OSHR, and OBK's registers (R112), by offset. -/
def optLegal : List Fld :=
  [OPT.OPLIM_LIM, OPT.OSHR_SHR] ++
    ((List.range 16).flatMap fun p => ((OPTP.regs p).take 3).flatMap (rwFlds pOPT 0)) ++
    sortOff ((obkRegs.filter fun r => legalOff (r.off - 0x400)).flatMap (rwFlds pOPT 0))

/-- The fields of R161 under the present designation, in ascending page and offset order. -/
def legalFlds (s : State) : List Fld :=
  let banks := desBanks s
  let ctxs := (List.range 64).filter (isMctx s)
  (if banks.any fun n => decide (n < 48) then [PWR.AFEMD_ECO] else []) ++
    ((banks.filter fun n => decide (n < 48)).flatMap fun n =>
      hENABLE (bankPage n) :: sortOff ((BNK.regs.filter fun r => legalOff r.off).flatMap (rwFlds (bankPage n) 0))) ++
    (banks.flatMap fun n => (List.range 16).flatMap fun k =>
      (LIN.regs.filter fun r => isSetOff r.off).flatMap (rwFlds pLIN (16 * n + k))) ++
    [MTR.MDESLO_BANKS, MTR.MDESHI_BANKS, MTR.MCTXLO_CTX, MTR.MCTXHI_CTX] ++
    (if designated s 48 then optLegal else []) ++
    ctxs.flatMap fun c => [STM.CCFG_CEN c, STM.CCFG_PATH c] ++ (List.range 25).map fun k => STM.CSET_CH k c

/-- The AFE groups that hold a designated bank, as bits of AFEMD.ECO. -/
def desGroups (s : State) : Nat := maskOf ((List.range 6).filter fun g => (desBanks s).any fun n => n / 8 = g)

/-- A legally relevant value: of AFEMD.ECO only the bits of groups with a designated bank count. -/
def legalVal (d s : State) (f : Fld) : Nat := if f = PWR.AFEMD_ECO then get s f &&& desGroups d else get s f

/-- The legally relevant values as they stand (R163, the parameter record). -/
def recFields (s : State) : List (Fld × Nat) := (legalFlds s).map fun f => (f, legalVal s s f)

/-- The words of the parameter record: designation, fields with the coefficient sets, SWVER. R163 lists what it holds and no layout: one
word a field, the designation first and once more among the fields of R161, the coefficients at their places there (DESIGN CHOICE, log
entry 123). -/
def recWords (s : State) : List Word :=
  [wd (get s MTR.MDESLO_BANKS), wd (get s MTR.MDESHI_BANKS), wd (get s MTR.MCTXLO_CTX), wd (get s MTR.MCTXHI_CTX)] ++
    (recFields s).map (fun e => wd e.2) ++
    [wd (pack [(MTR.SWVER_MAJ, get s MTR.SWVER_MAJ), (MTR.SWVER_MIN, get s MTR.SWVER_MIN), (MTR.SWVER_BLD, get s MTR.SWVER_BLD)])]

/-- PDIG of the live registers (R163). -/
def pdigNow (s : State) : List Word := exactly 12 (Config.sha384 (recWords s))

/-- The registers (page offset, instance) on a page whose legally relevant value two states differ in, rising; the designation is the
first state's (R166). -/
def legalChanged (old new : State) (page : Nat) : List (Nat × Nat) :=
  (((legalFlds old).filter fun f => f.page = page && legalVal old old f != legalVal old new f).map fun f => (f.off, f.idx)).dedup

/-- Whether the image changes a legally relevant field of the register at an offset, judged while the seal locks them (R161). -/
def violLegal (s img : State) (page off : Nat) : List Viol :=
  viol (sealLocks s && (legalChanged s img page).any fun p => p.1 = off) .locked off

/-! ### The audit trail (R166, R167) -/

/-- Append an entry with the present EVCNT. -/
def audit (s : State) (type page off src role old new : Nat) : State :=
  let prev := match s.mtr.audit with
    | a :: _ => a.e.getD 7 0#32
    | [] => 0#32
  let e := [wd (get s MTR.EVCNT_CNT), wd s.time.sec, wd s.time.ns, wd (type * 2 ^ 24 + page * 4096 + off),
    wd (src * 2 ^ 28 + role * 2 ^ 24 + s.time.sec / 2 ^ 32 % 65536), wd old, wd new]
  { s with mtr := { s.mtr with audit := (⟨e ++ [crc32c (e ++ [prev])]⟩ :: s.mtr.audit).take 1024 } }

/-- One event is counted. -/
def countEvent (s : State) : State := raise (bumpSat s MTR.EVCNT_CNT) pMTR 10

/-- A counted event with one entry by hardware. -/
def hwEvent (s : State) (type old new : Nat) : State := audit (countEvent s) type 0 0 0xF 0xF old new

/-- The word of a register at an instance. -/
def regWord (s : State) (page off idx : Nat) : Nat :=
  match regAt page off with
  | none => 0
  | some r => assemble s page off idx r.fields

/-- A committed burst that changed legally relevant fields while MTR is IDLE and EVS = 1: one event, one entry per changed word
(R166). -/
def paramEvent (old s : State) (src : Src) (page : Nat) : State :=
  let l := legalChanged old s page
  if pstate old pMTR = stIDLE ∧ flag s MTR.MSTAT_EVS ∧ !l.isEmpty then
    l.foldl (fun s1 p => audit s1 3 page p.1 (srcCode src) (roleField s src) (regWord old page p.1 p.2) (regWord s page p.1 p.2))
      (countEvent s)
  else s

/-! ### Transitions (R163–R165, R169, R170) -/

/-- Register PDIG0 as a number. -/
def pdig0 (s : State) : Nat := get s (MTR.PDIG 0)

/-- Show a digest in PDIG0–PDIG11. -/
def showPdig (s : State) (d : List Word) : State := forEach (List.range 12) (fun s k => put s (MTR.PDIG k) (d.getD k 0#32).toNat) s

/-- A SEALED interval begins at domain time. -/
def metroBegin (s : State) : State := mkTransition { s with mtr := { s.mtr with seals := (now16 s, none) :: s.mtr.seals } }

/-- The SEALED interval that lasts ends at domain time. -/
def closeSeal (s : State) : State :=
  { s with mtr := { s.mtr with seals := match s.mtr.seals with
      | (a, none) :: t => (a, some (now16 s)) :: t
      | l => l } }

/-- MTR leaves SEALED: the METRO contexts close their blocks, and a checkpoint is emitted (R165). -/
def metroEnd (s : State) : State := if sealOn s then mkTransition (closeSeal s) else s

/-- The designated banks enter SEALED (R90, R163, R170): one in IDLE starts, once its self-check has passed by (R125); one that samples
already goes on. While the L0 signature fails no bank leaves IDLE (R125). -/
def sealBanks (s : State) : State :=
  forEach (desBanks s) (fun s n =>
    if bstate s n = stIDLE ∧ !s.pwr.l0Bad ∧ !(bank s n).checking then bankStart s n stSEALED
    else if bstate s n = stRUN ∨ bstate s n = stTEST then setPState s (bankPage n) stSEALED
    else s) s

/-- MSTAT.TWMIS (R171): this unit and its partner are sealed with different PDIGs. -/
def judgeTwin (s : State) : State :=
  let p := s.twl.pdig
  match s.mtr.record with
  | some r =>
    if pstate s pMTR = stSEALED ∧ s.twl.paired ∧ s.twl.psealed ∧ p ≠ r.pdig then
      (if flag s MTR.MSTAT_TWMIS then s else raise (putB s MTR.MSTAT_TWMIS true) pMTR 14)
    else putB s MTR.MSTAT_TWMIS false
  | none => putB s MTR.MSTAT_TWMIS false

/-- The designated banks go SEALED to IDLE. -/
def unsealBanks (s : State) : State := forEach ((desBanks s).filter fun n => bstate s n = stSEALED) bankStop s

/-- MTR faults while sealed (R170): FCAUSE, METRO blocks cease, a checkpoint, MISMATCH. -/
def mtrFault (s : State) (cause : Nat) : State :=
  setPState (metroEnd (raise (put s MTR.MSTAT_FCAUSE cause) pMTR 13)) pMTR stFAULT

/-- The seal breaks (R169): a final checkpoint, also in FAULT, and a BREAK entry that shares the EVCNT of its cause. -/
def sealBreak (s : State) : State :=
  if pstate s pMTR = stSEALED ∨ pstate s pMTR = stFAULT then
    let s1 := audit (mkTransition (closeSeal s)) 7 0 0 0xF 0xF (pdig0 s) 0
    let s2 := put (raise (putB s1 MTR.MSTAT_BRK true) pMTR 11) MTR.MSTAT_FCAUSE 0
    unsealBanks (setPState (setBusy { s2 with mtr := { s2.mtr with record := none, op := none, verify := none } } pMTR false) pMTR stIDLE)
  else s

/-- The record is loaded into the designated banks and LIN (R170): a bank whose ENABLE it sets leaves OFF, ports follow their mode, and the
groups of designated banks take the record's economy mode (R116). -/
def loadRecord (s : State) (r : SealRec) : State :=
  let s0 := r.fields.foldl (fun s e => if e.1 = PWR.AFEMD_ECO then s else put s e.1 e.2) s
  let rest := 63 - desGroups s0
  let eco := ((r.fields.find? fun e => e.1 = PWR.AFEMD_ECO).map (·.2)).getD 0
  let s1 := put { s0 with pwr := { s0.pwr with eco := (s0.pwr.eco &&& rest) ||| eco, ecoPend := s0.pwr.ecoPend &&& rest } } PWR.AFEMD_ECO
    ((get s0 PWR.AFEMD_ECO &&& rest) ||| eco)
  let s2 := forEach ((desBanks s1).filter fun n => answers s1 (bankPage n) && flag s1 (hENABLE (bankPage n)) && bstate s1 n = stOFF)
    (fun s n => setPState s (bankPage n) stIDLE) (refreshLin (dropStale (afterOPT s s1)))
  forEach ((desBanks s2).filter (producing s2)) (afterBank s) s2

/-- MTR enters SEALED on a valid record: the banks start that do not sample yet, and a partner sealed otherwise is noticed (R171). -/
def enterSealed (s : State) (r : SealRec) : State :=
  let s1 := showPdig (put s MTR.MSTAT_FCAUSE 0) r.pdig
  judgeTwin (metroBegin (sealBanks (setPState s1 pMTR stSEALED)))

/-- MTR at the power-up of PD_MTR (R163, R170): a valid record is loaded; a counter value one above EVCNT completes the SEAL entry. -/
def mtrPowerUp (s : State) : State :=
  match s.mtr.record with
  | none => s
  | some r =>
    if s.mtr.recGood then
      let s1 := if r.cnt = get s MTR.EVCNT_CNT + 1 then
          audit (countEvent (putB s MTR.MSTAT_EVS true)) 1 pMTR 0x40 0xF 0xF 0 (r.pdig.getD 0 0#32).toNat
        else s
      enterSealed (loadRecord s1 r) r
    else setPState (put s MTR.MSTAT_FCAUSE 3) pMTR stFAULT

/-! ### MCMD (R162–R164, R172) -/

/-- Every TSRC = 1 channel of a designated bank names a TCH in a designated bank. -/
def tchDesignated (s : State) : Bool :=
  (desBanks s).all fun n => (List.range 16).all fun k =>
    get s (LIN.LCFG_TSRC (16 * n + k)) != 1 || designated s (bankOfCh (get s (LIN.LCFG_TCH (16 * n + k))))

/-- Every METRO context holds only path M channels of designated banks. -/
def mctxDesignated (s : State) : Bool :=
  ((List.range 64).filter (isMctx s)).all fun c => get s (STM.CCFG_PATH c) = 0 && (ctxChans s c).all fun ch => designated s (bankOfCh ch)

/-- Whether a source is an OWNER session (R162, R164): MGP's own writes belong to no session. -/
def ownerSession (s : State) : Src → Bool
  | .mgp => false
  | .forged _ => false
  | .token _ _ => false
  | .session sid n => srcRole s (.session sid n) = some .owner

/-- Whether both units of a pair are KGL768-IM (R4). -/
def bothIM (s : State) : Bool := pcap s pMTR % 2 = 1 && s.twl.pcode = 2

/-- Why a SEAL is rejected: the first check of R162 that fails, on the image of its burst (R28). A pair seals only where both units are
KGL768-IM (R4); R162 gives that no row, and it is judged with the partner's (DEDUCED, log entry 110). A broken seal is not restored while
the hub has no owner (R366); R162 gives that no row either (DEDUCED, log entry 129). -/
def sealCheck (s img : State) (src : Src) (jumper : Bool) : Option Reason :=
  let des := desBanks img
  if !ownerSession s src || (!flag s SEC.OSTAT_OWNED && flag s MTR.MSTAT_BRK) then some .auth
  else if pcap s pMTR % 2 = 0 then some .range
  else if des.isEmpty then some .range
  else if !tchDesignated img then some .range
  else if !mctxDesignated img then some .range
  else if pstate s pMTR ≠ stIDLE ∨ flag s (hBUSY pMTR) then some .state
  else if !mtpRuns s then some .busy
  else if !jumper then some .state
  else if des.any fun n => bstate s n != stIDLE then some .state
  else if des.any (bankUsesQuads img) && !(pstate s pEXC = stIDLE || pstate s pEXC = stRUN) then some .state
  else if s.twl.paired && (s.twl.pdig != pdigNow img || !bothIM s) then some .state
  else none

/-- The reasons an MCMD is rejected. -/
def violMcmd (s img : State) (src : Src) (jumper : Bool) (off : Nat) (w : Word) : List Viol :=
  match wbits w 3 0 with
  | 0 => []
  | 1 => match sealCheck s img src jumper with
    | none => []
    | some r => [(r, off)]
  | 2 => viol (!ownerSession s src) .auth off ++
      viol (!jumper || !(pstate s pMTR = stSEALED || pstate s pMTR = stFAULT)) .state off
  | 3 => viol (flag s (hBUSY pMTR) || !mtpRuns s) .busy off
  | _ => [(.range, off)]

/-- Start an operation of MTP. -/
def mtrStart (s : State) (op : MtrOp) : State := setBusy { s with mtr := { s.mtr with op := some op } } pMTR true

/-- The effect of an accepted MCMD: SEAL clears BRK (R169); UNSEAL emits the final checkpoints at once, from SEALED and from FAULT (R164), and
one that is already in progress goes on. -/
def effMcmd (s : State) (src : Src) (jumper : Bool) (w : Word) : State :=
  let s0 := putB s MTR.MSTAT_SEALN jumper
  match wbits w 3 0 with
  | 1 =>
    progStart (mtrStart (putB s0 MTR.MSTAT_BRK false) (.sealing ⟨recFields s, pdigNow s, get s MTR.EVCNT_CNT + 1⟩ (srcCode src) (roleField s src))) pMTR
      (recWords s).length
  | 2 => if s.mtr.op.isSome then s0 else mtrStart (mkTransition (closeSeal s0)) (.unsealing (srcCode src) (roleField s src))
  | 3 => progStart (setBusy { s with mtr := { s.mtr with verify := some (pdigNow s) } } pMTR true) pMTR (recWords s).length
  | _ => s

/-- The seal operation of MTP ends; BUSY stays while a VERIFY runs. -/
def mtrStop (s : State) : State := setBusy { s with mtr := { s.mtr with op := none } } pMTR s.mtr.verify.isSome

/-- SEALED (R163 step 5): the record is durable. -/
def execSealed (s : State) : Host.Outcome State Fault Refusal :=
  match s.mtr.op with
  | some (.sealing r src role) =>
    let s1 := progDone (mtrStop s) pMTR
    let s2 := putB s1 MTR.MSTAT_EVS true
    let s3 := audit (countEvent { s2 with mtr := { s2.mtr with record := some r, recGood := true } }) 1 pMTR 0x40 src role 0
      (r.pdig.getD 0 0#32).toNat
    .next (raise (enterSealed s3 r) pMTR 8)
  | _ => .next s

/-- SEALFAIL (R163): the write of the record fails. -/
def execSealfail (s : State) : Host.Outcome State Fault Refusal :=
  match s.mtr.op with
  | some (.sealing ..) => .next (raise (mtrStop s) pMTR 12)
  | _ => .next s

/-- UNSEALED (R164 steps 3 and 4): the void marker is durable. -/
def execUnsealed (s : State) : Host.Outcome State Fault Refusal :=
  match s.mtr.op with
  | some (.unsealing src role) =>
    let s1 := audit (countEvent (mtrStop s)) 2 pMTR 0x40 src role (pdig0 s) 0
    let s2 := setPState (put { s1 with mtr := { s1.mtr with record := none } } MTR.MSTAT_FCAUSE 0) pMTR stIDLE
    .next (raise (unsealBanks s2) pMTR 9)
  | _ => .next s

/-- VERIFY_DONE (R172): PDIG shows the digest. -/
def execVerifyDone (s : State) : Host.Outcome State Fault Refusal :=
  match s.mtr.verify with
  | some d => .next (progDone (setBusy { showPdig s d with mtr := { s.mtr with verify := none } } pMTR s.mtr.op.isSome) pMTR)
  | none => .next s

/-- SELF_CHECK (R125): the check of a domain's modulators completes; a designated bank that a seal waits to start starts (R170). -/
def execSelfCheck (d : Nat) (good : Bool) (vals : List CheckVal) (s : State) : Host.Outcome State Fault Refusal :=
  if !((decide (3 ≤ d) && decide (d ≤ 8)) || d = 10) then .fault .noSuchUnit
  else
    let s1 := selfCheck d good vals s
    .next (if pstate s1 pMTR = stSEALED then sealBanks s1 else s1)

/-- LID_OPEN (R166). -/
def execLidOpen (s : State) : Host.Outcome State Fault Refusal := .next (hwEvent (putB s MTR.MSTAT_LIDO true) 5 0 1)

/-- PDIG_CHECK (R165, R170): the live registers differ from the sealed record (DEDUCED: their digests differ exactly then). -/
def execPdigCheck (s : State) : Host.Outcome State Fault Refusal :=
  match s.mtr.record with
  | some r => if pstate s pMTR = stSEALED ∧ mtpRuns s ∧ recFields s ≠ r.fields then .next (mtrFault s 1) else .next s
  | none => .next s

/-- ITEM_CHECK (R165, R170). -/
def execItemCheck (good : Bool) (s : State) : Host.Outcome State Fault Refusal :=
  if pstate s pMTR = stSEALED ∧ mtpRuns s ∧ !good then .next (mtrFault s 2) else .next s

/-- RELOAD_RETRY (R170): in FAULT the record is reloaded and verified again. -/
def execReloadRetry (good : Bool) (s : State) : Host.Outcome State Fault Refusal :=
  match s.mtr.record with
  | some r =>
    if pstate s pMTR = stFAULT ∧ mtpRuns s ∧ good ∧ s.mtr.op = none then
      .next (enterSealed (loadRecord { s with mtr := { s.mtr with recGood := true } } r) r)
    else .next s
  | none => .next s

/-! ### Page MTR (R160, R172) -/

/-- The reasons a word of MTR's designation is rejected. -/
def violMTR (s img : State) (off : Nat) : List Viol :=
  if 0x44 ≤ off ∧ off ≤ 0x50 then
    let c := chg s img (if off = 0x44 then MTR.MDESLO_BANKS else if off = 0x48 then MTR.MDESHI_BANKS
      else if off = 0x4C then MTR.MCTXLO_CTX else MTR.MCTXHI_CTX)
    viol (decide (off < 0x4C) && decide (8 < (desBanks img).length)) .size off ++ viol (c && pstate s pMTR != stIDLE) .state off
  else []

/-- What the computed registers of page MTR read. -/
def viewMTR (s : State) (off : Nat) : Option Nat :=
  let a := s.mtr.audit[get s MTR.TRIDX_AGE]?
  if off = 0x54 then some (storedWord s pMTR 0x54 + (desBanks s).length * 256)
  else if off = 0x5C then some s.mtr.audit.length
  else if 0x64 ≤ off ∧ off ≤ 0x80 then some (match a with
    | some x => (x.e.getD ((off - 0x64) / 4) 0#32).toNat
    | none => 0)
  else none

end Sys2Proof.Machine
end

