-- ==== Sys2Proof/Machine/Tsu.lean ====
section
/-! DEFINITION. Network time (R257–R278): the increment, SET and STEP, the servo, time sources, PTP timestamps and exchanges, path
steps, and pages TSU and ETH. -/

namespace Sys2Proof.Machine

/-! ### Domain time and the increment (R257–R262) -/

/-- Domain time in 2^-32 ns. -/
def now32 (s : State) : Nat := nowNs s * 2 ^ 32 + s.time.frac

/-- A time of `v` in 2^-32 ns. -/
def timeOf32 (v : Nat) : DTime :=
  let ns := v / 2 ^ 32
  ⟨ns / 1000000000 % 2 ^ 48, ns % 1000000000, v % 2 ^ 32⟩

/-- The range of the increment (R259). -/
abbrev incMin : Nat := 0x411900001
abbrev incMax : Nat := 0x411C55555

/-- Write a 36-bit increment. -/
def setInc (s : State) (i : Nat) : State := puts s [(TSU.INCHI_INT, i / 2 ^ 32), (TSU.INCLO_FRAC, i)]

/-- Whether SCH is ARMED or RUN. -/
def schActive (s : State) : Bool := pstate s pSCH = stARMED || pstate s pSCH = stRUN

/-- TADJ in 2^-32 ns. -/
def tadj32 (s : State) : Int := toSigned 32 (get s TSU.TADJ_NS) * 2 ^ 32

/-- SET (R261): TSETH:TSETL:TSETN:TSETF is the present time. -/
def timeSet (s : State) : State :=
  let t : DTime := ⟨get s TSU.TSETH_SEC * 2 ^ 32 + get s TSU.TSETL_SEC, get s TSU.TSETN_NS, get s TSU.TSETF_FRAC * 65536⟩
  raise { s with time := t, tsu := { s.tsu with setMade := true } } pTSU 14

/-- Step domain time by a signed amount in 2^-32 ns. -/
def timeStep (s : State) (d : Int) : State := raise { s with time := timeOf32 ((now32 s : Int) + d).toNat } pTSU 14

/-! ### Sources (R18, R263, R264, R276) -/

/-- Whether the hub is head, or an island time keeper. -/
def isHead (s : State) : Bool := get s DOM.DROLE_AUTH = 1
def isKeeper (s : State) : Bool := flag s DOM.DROLE_KEEP

/-- Whether a qualified source may be selected: a keeper takes none, a head no trunk time, and PTP waits while its asymmetry is
unknown (R263, R274). -/
def usable (s : State) (c : Nat) : Bool :=
  !isKeeper s && (match c with
    | 1 => flag s TSU.TSTAT_QTK && !isHead s
    | 2 => flag s TSU.TSTAT_QPTP && !flag s TSU.TSTAT_AUNK
    | 3 => flag s TSU.TSTAT_QPPS
    | _ => false)

/-- The source the order gives; 0 for none. -/
def bestSource (s : State) : Nat :=
  let l := if get s TSU.TCTL_ORD = 0 then [1, 2, 3] else [get s TSU.TCTL_SRC1, get s TSU.TCTL_SRC2, get s TSU.TCTL_SRC3]
  (l.find? (usable s)).getD 0

/-- Whether MGP runs (R352). -/
def mgpRuns (s : State) : Bool := get s (MGT.PRST_ST 0) = 2

/-- A slew under way ends: the servo returns the increment to the frequency-correcting one (R274 step 1). Where the servo is disabled or MGP
does not run, nothing writes the increment (R12). -/
def endSlew (s : State) : State :=
  if flag s TSU.TSTAT_SLEW ∧ flag s TSU.TCTL_SERVO ∧ mgpRuns s then setInc (putB s TSU.TSTAT_SLEW false) s.tsu.freq else s

/-- Select the source the order gives, and the state that follows (R276). -/
def choose (s : State) : State :=
  let new := bestSource s
  let cur := get s TSU.TSTAT_SRC
  let s1 := puts s [(TSU.TSTAT_SRC, new), (TSU.TSTAT_FRN, (decide (new = 0)).toNat)]
  let lost : Bool := new = 0 && (cur != 0 || pstate s pTSU = stHOLD)
  let s2 := if lost then raise (putB s1 TSU.TSTAT_SLEW false) pTSU 11 else if new = cur then s1 else raise s1 pTSU 12
  setPState s2 pTSU (if new = 0 then stIDLE else stRUN)

/-- Select again, where the state selects at all: not in OFF, and not while a path step is held. -/
def reselect (s : State) : State := if pstate s pTSU = stOFF ∨ pstate s pTSU = stHOLD then s else choose s

/-- The handling of a path step ends (R274 steps 3a, 4, 5). -/
def endPath (s : State) : State :=
  let s1 := puts s [(TSU.TSTAT_PSH, 0), (TSU.TSTAT_AUNK, 0)]
  if pstate s pTSU = stOFF then s1 else choose s1

/-- The qualification bit of a source. -/
def qBit (c : Nat) : Option Fld :=
  match c with
  | 1 => some TSU.TSTAT_QTK
  | 2 => some TSU.TSTAT_QPTP
  | 3 => some TSU.TSTAT_QPPS
  | _ => none

/-- A source that has qualified is lost; the loss of the PTP master ends the handling of a path step, qualified or not (R264, R274). -/
def sourceLost (s : State) (c : Nat) : State :=
  match qBit c with
  | none => s
  | some f =>
    let s1 := putB s f false
    if c = 2 ∧ (flag s TSU.TSTAT_PSH ∨ flag s TSU.TSTAT_AUNK) then endPath s1 else if flag s f then reselect s1 else s

/-- The time-facing port (R307, R322): east unless the west hop count is lower; within an island with another keeper, by the hops of
TKEEP. -/
def timeSide (s : State) : Nat :=
  let k := get s DOM.DROLE_AUTH = 3 && s.dom.keeperPos.isSome && !isKeeper s
  let e := if k then tget s.dom.keepHops 0 255 else get s DOM.HPATH_HOPE
  let w := if k then tget s.dom.keepHops 1 255 else get s DOM.HPATH_HOPW
  if w < e then 1 else 0

/-- Bring the time-facing port up to date. -/
def refreshSide (s : State) : State := put s DOM.HPATH_TSIDE (timeSide s)

/-- Whether the hub hears a head. -/
def hearsHead (s : State) : Bool := get s DOM.HPATH_HOPE != 255 || get s DOM.HPATH_HOPW != 255

/-- A keeper whose trunk time from the side of the head has qualified steps out (R323 step 3). -/
def stepOut (s : State) : State :=
  if isKeeper s ∧ hearsHead s then
    let s1 := putB s DOM.DROLE_KEEP false
    refreshSide { s1 with dom := { s1.dom with keeperPos := none, keepHops := [] } }
  else s

/-- Whether a port reports trunk time valid (R311): it runs, TDIST has come within the last 300 µs, or 73,728 cycles, and 64 exchanges have
passed since its active lanes last changed. -/
def trunkValid (s : State) (p : Nat) : Bool :=
  linkRuns s p && ((tget s.dom.oup p none).any fun o => decide (s.cyc ≤ o.2 + 73728)) && decide (64 ≤ (link s p).since)

/-- Whether MGP runs a PTP clock that may follow a master (R272). -/
def ptpSlave (s : State) : Bool :=
  mgpRuns s && flag s ETH.ELNK_UP && (get s ETH.PTPCFG_ROLE = 1 || get s ETH.PTPCFG_ROLE = 3)

/-- The identity of the chosen master; 0 for none. -/
def masterId (s : State) : Nat := get s ETH.GMIDH_ID * 2 ^ 32 + get s ETH.GMIDL_ID

/-- What a source must show in the state before it can qualify (R263); that it has held for QUAL seconds is the row's own. -/
def mayQualify (s : State) (c : Nat) : Bool :=
  match c with
  | 1 => trunkValid s (timeSide s)
  | 2 => ptpSlave s && masterId s != 0
  | _ => flag s AXS.PPSCFG_PEN && flag s TSU.REFCFG_REN

/-- SOURCE_QUALIFY (R263, R323). -/
def execSourceQualify (c : Nat) (s : State) : Host.Outcome State Fault Refusal :=
  match qBit c with
  | none => .fault .noSuchUnit
  | some f =>
    if !mayQualify s c then .next s
    else
      let s1 := putB s f true
      .next (reselect (if c = 1 then stepOut s1 else s1))

/-- SOURCE_LOST (R264, R274). -/
def execSourceLost (c : Nat) (s : State) : Host.Outcome State Fault Refusal :=
  match qBit c with
  | none => .fault .noSuchUnit
  | some _ => .next (sourceLost s c)

/-- 1PPS with REFIN is lost when one of its enables is cleared (R263). -/
def ppsLost (s : State) : State :=
  if flag s AXS.PPSCFG_PEN && flag s TSU.REFCFG_REN then s else sourceLost s 3

/-- PPS_EDGE (R55, R263): the nanosecond field of the edge; one outside ±1 µs of the whole second the counter predicts loses the source. -/
def execPpsEdge (t : Nat) (s : State) : Host.Outcome State Fault Refusal :=
  if flag s AXS.PPSCFG_PEN ∧ pstate s pAXS ≠ stOFF then
    let s1 := put s AXS.PPSNS_NS (t % secNs)
    let s2 := raise { s1 with axs := { s1.axs with ppsT := some t } } pAXS 13
    .next (if 1000 < t % secNs ∧ t % secNs < secNs - 1000 then sourceLost s2 3 else s2)
  else .next s

/-- REFIN cycles in a second of each FREQ code (R265). -/
def refNominal (code : Nat) : Nat := if code = 0 then 10000000 else if code = 1 then 24576000 else 49152000

/-- REFIN_COUNT (R263, R265): the count; one outside ±100 ppm of FREQ loses the source. -/
def execRefinCount (n : Nat) (s : State) : Host.Outcome State Fault Refusal :=
  if flag s TSU.REFCFG_REN then
    let s1 := put s TSU.REFCNT_N n
    let nom := refNominal (get s TSU.REFCFG_FREQ)
    .next (if nom < 10000 * ((n : Int) - nom).natAbs then sourceLost s1 3 else s1)
  else .next s

/-! ### The servo (R260, R262) -/

/-- The slew deviation of TSLW.PPM, in units of the increment: parts per million of 3125/768 ns. -/
def slewUnits (s : State) : Nat := get s TSU.TSLW_PPM * 17476266667 / 1000000

/-- The increment of a slew that removes an offset (hub minus source), kept within the range of R259. -/
def slewInc (s : State) (inc : Nat) (ofs : Int) : Nat :=
  if ofs < 0 then min incMax (inc + slewUnits s) else max incMin (inc - slewUnits s)

/-- Whether the servo removes an offset by a step (R262): as its start-up step, whatever ASTEP and STPTH hold, before SCH first
enters ARMED (R403); or beyond STPTH with ASTEP = 1 while SCH is IDLE or OFF; an island hub whose keeper has stepped out only slews
(R323 step 3). -/
def mayStep (s : State) (ofs : Int) : Bool :=
  (!s.sch.armedOnce && !s.tsu.stepDone && ofs != 0) ||
    (!(get s DOM.DROLE_AUTH = 3 && hearsHead s && s.dom.keeperPos.isNone && !isKeeper s) && flag s TSU.TCTL_ASTEP && (pstate s pSCH = stIDLE || pstate s pSCH = stOFF) && decide (get s TSU.STPTH_US * 1000 < ofs.natAbs))

/-- SERVO (R260, R262): MGP's servo writes the frequency-correcting increment; it removes the offset by a slew, or by a step where one
is allowed. -/
def execServo (inc : Nat) (ofs fofs : Int) (s : State) : Host.Outcome State Fault Refusal :=
  if flag s TSU.TCTL_SERVO ∧ mgpRuns s ∧ pstate s pTSU = stRUN then
    let f := max incMin (min incMax inc)
    let s1 := put { s with tsu := { s.tsu with freq := f, stepDone := true } } TSU.FOFS_F (ofSigned 32 fofs)
    if mayStep s ofs then .next (timeStep (setInc (putB s1 TSU.TSTAT_SLEW false) f) (-ofs * 2 ^ 32))
    else if ofs = 0 then .next (setInc (putB s1 TSU.TSTAT_SLEW false) f)
    else .next (setInc (putB s1 TSU.TSTAT_SLEW true) (slewInc s f ofs))
  else .next s

/-! ### PTP (R267–R275) -/

/-- Picoseconds in 2^-16 ns, rounded down (the spec gives the resolution and no rounding: DESIGN CHOICE). -/
def ps16 (p : Nat) : Int := toSigned 32 p * 65536 / 1000

/-- MGP reads the transmit FIFO before it handles what arrives next. -/
def drainFifo (s : State) : State := if mgpRuns s then { s with tsu := { s.tsu with fifo := [] } } else s

/-- PTP_RX (R267, R269): the receive timestamp travels with the frame to MGP; no frame arrives while the link is down. -/
def execPtpRx (kind latch : Nat) (s : State) : Host.Outcome State Fault Refusal :=
  if !flag s ETH.ELNK_UP then .next s
  else
    let t := ((latch : Int) - ps16 (get s TSU.RXCORR_PS)).toNat
    let s1 := drainFifo s
    .next (emit (if kind = 0 then bumpMod s1 ETH.NSYNC_N else s1) (.ptpRx kind t))

/-- A transmit timestamp enters the FIFO; a full one loses its oldest entry. -/
def pushTs (s : State) (kind t : Nat) : State :=
  let l := s.tsu.fifo ++ [(kind, t)]
  if 16 < l.length then raise (bumpSat { s with tsu := { s.tsu with fifo := l.drop 1 } } ETH.TSOVF_N) pETH 11
  else { s with tsu := { s.tsu with fifo := l } }

/-- The sum of two 16-bit words with end-around carry. -/
def onesAdd (a b : Nat) : Nat := (a + b) % 65536 + (a + b) / 65536

/-- The 16-bit words of a message that one-step insertion may change: the correction field, then the seconds and nanoseconds of
originTimestamp. -/
def stampWords (m : PtpMsg) (corr : Int) : List Nat :=
  let c := (corr % 2 ^ 64).toNat
  [c / 2 ^ 48, c / 2 ^ 32 % 65536, c / 65536 % 65536, c % 65536, m.sec / 2 ^ 32 % 65536, m.sec / 65536 % 65536, m.sec % 65536,
    m.ns / 65536 % 65536, m.ns % 65536]

/-- What the changed words add to a one's complement sum. -/
def stampDelta (old new : List Nat) : Nat := (List.zipWith (fun a b => onesAdd (65535 - a) b) old new).foldl onesAdd 0

/-- The 8 × `n` bits of a number as bytes, most significant first. -/
def beBytes : Nat → Nat → List Nat
  | 0, _ => []
  | n + 1, v => v / 2 ^ (8 * n) % 256 :: beBytes n v

/-- The bytes of a PTP message's Ethernet frame, under transport `trans`. -/
def ptpFrame (trans : Nat) (m : PtpMsg) (corr : Int) : List Nat :=
  m.pre ++ (if trans = 0 then [] else beBytes 2 m.sum) ++ m.head ++ beBytes 8 (corr % 2 ^ 64).toNat ++ m.mid ++ beBytes 6 m.sec ++ beBytes 4 m.ns ++
    m.tail ++ if trans = 2 then beBytes 2 m.pad else []

/-- The message as MGP composes it: twoStepFlag, bit 1 of the header's byte 6, is clear in a one-step message and set in a two-step Sync or
Pdelay_Resp (R270). -/
def composed (one : Bool) (m : PtpMsg) : PtpMsg :=
  if one then { m with head := m.head.modify 6 fun b => b &&& 253 }
  else if m.kind = 0 ∨ m.kind = 3 then { m with head := m.head.modify 6 fun b => b ||| 2 }
  else m

/-- One-step insertion of a transmit time in 2^-16 ns (R270): originTimestamp, the correction, and over UDP the checksum, or the two
trailing bytes that keep it valid. -/
def insertStamp (trans t : Nat) (m : PtpMsg) (corr : Int) : PtpMsg × Int :=
  let c := corr + (t % 65536 : Nat)
  let n := { m with sec := t / sec16 % 2 ^ 48, ns := t % sec16 / 65536 }
  let d := stampDelta (stampWords m corr) (stampWords n c)
  (if trans = 1 then { n with sum := if m.sum = 0 then 0 else 65535 - onesAdd (65535 - m.sum) d }
    else if trans = 2 then { n with pad := onesAdd m.pad (65535 - d) }
    else n, c)

/-- The clockClass this hub reports as a master (R272). -/
def clockClass (s : State) : Nat := if get s TSU.TSTAT_SRC = 0 then 187 else get s ETH.PTPID_CLASS

/-- PTP_TX (R267, R269, R270, R272): Sync and Delay_Req carry the timestamp where ONESTEP = 1; other timestamps enter the FIFO, and MGP sends
the Follow_Up of a Sync or Pdelay_Resp with it. Beside a message stand the clockClass MGP announces as it leaves, and the frame's FCS. While
MGP does not run, it sends none (R352). -/
def execPtpTx (msg : PtpMsg) (latch : Nat) (corr : Int) (s : State) : Host.Outcome State Fault Refusal :=
  if !flag s ETH.ELNK_UP ∨ !mgpRuns s then .next s
  else
    let trans := get s ETH.PTPCFG_TRANS
    let t := ((latch : Int) + ps16 (get s TSU.TXCORR_PS)).toNat
    let one : Bool := flag s ETH.PTPCFG_ONESTEP && decide (msg.kind ≤ 1)
    let m := composed one msg
    if one then
      let r := insertStamp trans t m corr
      .next (emit (bumpMod s ETH.NINS_N) (.ptpTx r.1 r.2 (clockClass s) (ethFcs (ptpFrame trans r.1 r.2))))
    else
      let s1 := pushTs (emit s (.ptpTx m corr (clockClass s) (ethFcs (ptpFrame trans m corr)))) msg.kind t
      .next (if msg.kind = 0 ∨ msg.kind = 3 then emit s1 (.followUp msg.kind t) else s1)

/-- Saturate to a signed 32-bit register. -/
def sat32 (x : Int) : Int := max (-0x80000000) (min 0x7FFFFFFF x)

/-- Whether a signed register holds an end of its range. -/
def atEnd (v : Nat) : Bool := v = 0x7FFFFFFF || v = 0x80000000

/-- TSTAT.SAT follows PTOFS and TKOFS. -/
def refreshSat (s : State) : State := putB s TSU.TSTAT_SAT (atEnd (get s TSU.PTOFS_OFS) || atEnd (get s TSU.TKOFS_OFS))

/-- PTOFS and TKOFS, signed, 2^-8 ns. -/
def ptofs (s : State) : Int := toSigned 32 (get s TSU.PTOFS_OFS)
def tkofs (s : State) : Int := toSigned 32 (get s TSU.TKOFS_OFS)

/-- The mean of a list, rounded to nearest. -/
def meanOf (l : List Int) : Int := if l.isEmpty then 0 else (2 * l.sum + l.length) / (2 * l.length)

/-- Whether PTP and trunk time differ by more than XTOL. -/
def xOut (s : State) : Bool := decide (get s TSU.XTOL_NS * 256 < (ptofs s - tkofs s).natAbs)

/-- XDIFF is armed again after 10 s within XTOL (R275). -/
def xTrack (s : State) : State :=
  if xOut s then { s with tsu := { s.tsu with xIn := none } }
  else
    let t := s.tsu.xIn.getD (nowNs s)
    { s with tsu := { s.tsu with xIn := some t, xArmed := s.tsu.xArmed || decide (t + 10000000000 ≤ nowNs s) } }

/-- TKOFS is reported (R266). -/
def setTkofs (s : State) (x : Int) : State := xTrack (refreshSat (put s TSU.TKOFS_OFS (ofSigned 32 (sat32 x))))

/-- A path step (R274 step 1). -/
def pathStep (s : State) (mpd : Nat) : State :=
  let s1 := raise (putB { s with tsu := { s.tsu with mpds := [mpd] } } TSU.TSTAT_PSH true) pTSU 8
  if pstate s1 pTSU = stRUN ∧ get s1 TSU.TSTAT_SRC = 2 then endSlew (setPState s1 pTSU stHOLD) else s1

/-- Whether MGP runs a PTP clock that completes delay exchanges (R272, R273): one that may follow a master, or a master with the peer delay
mechanism. -/
def exchanges (s : State) : Bool :=
  ptpSlave s || (mgpRuns s && flag s ETH.ELNK_UP && get s ETH.PTPCFG_ROLE = 2 && flag s ETH.PTPCFG_DELAY)

/-- DELAY_EXCHANGE (R273, R274): MPD, MPDF and PTOFS follow; a step of the mean path delay above PDSTEP is handled. A clock that follows no
master has no offset from one. Without a PTP clock there is no exchange. -/
def execDelayExchange (mpd : Nat) (ofs : Int) (s : State) : Host.Outcome State Fault Refusal :=
  if !exchanges s then .next s else
  let s0 := bumpMod (drainFifo s) ETH.NDLY_N
  let f := get s TSU.MPDF_D
  let step := !s.tsu.mpds.isEmpty && decide (get s TSU.PDSTEP_NS * 256 < ((mpd : Int) - f).natAbs)
  let s1 := if step then pathStep s0 mpd else { s0 with tsu := { s0.tsu with mpds := (mpd :: s0.tsu.mpds).take 16 } }
  let o := sat32 (ofs - toSigned 32 (get s TSU.ASYM_A))
  let s2 := puts s1 [(TSU.MPD_D, mpd), (TSU.MPDF_D, (meanOf (s1.tsu.mpds.map fun (x : Nat) => (x : Int))).toNat)]
  if !ptpSlave s then .next s2 else
  let s3 := put s2 TSU.PTOFS_OFS (ofSigned 32 o)
  .next (xTrack (refreshSat { s3 with tsu := { s3.tsu with exch := ((o, tkofs s3) :: s3.tsu.exch).take 16 } }))

/-- HOLDOFF (R274 steps 3a and 3b): the hold time after a path step ends. PTP that was selected in the meantime, outside HOLD, is deselected
as a lost source. -/
def execHoldoff (s : State) : Host.Outcome State Fault Refusal :=
  if !flag s TSU.TSTAT_PSH ∨ flag s TSU.TSTAT_AUNK then .next s
  else if usable s 1 then
    let a := toSigned 32 (get s TSU.ASYM_A) + meanOf (s.tsu.exch.map (·.1)) - meanOf (s.tsu.exch.map (·.2))
    .next (raise (endPath (put s TSU.ASYM_A (ofSigned 32 (sat32 a)))) pTSU 10)
  else
    let s1 := raise (putB s TSU.TSTAT_AUNK true) pTSU 9
    .next (if pstate s pTSU = stHOLD then puts s1 [(TSU.TSTAT_SRC, 0), (TSU.TSTAT_FRN, 1)]
      else if get s TSU.TSTAT_SRC = 2 then setPState (raise (puts s1 [(TSU.TSTAT_SRC, 0), (TSU.TSTAT_FRN, 1)]) pTSU 11) pTSU stIDLE
      else s1)

/-- The host writes ASYM while a path step is handled: the held state ends (R274 step 4). -/
def asymWritten (s : State) : State := if flag s TSU.TSTAT_PSH ∨ flag s TSU.TSTAT_AUNK then endPath s else s

/-- XDIFF (R275). -/
def execXdiff (s : State) : Host.Outcome State Fault Refusal :=
  if pstate s pTSU ≠ stHOLD ∧ !flag s TSU.TSTAT_PSH ∧ get s TSU.TSTAT_SRC ≠ 2 ∧ flag s TSU.TSTAT_QPTP ∧ flag s TSU.TSTAT_QTK ∧
      xOut s ∧ s.tsu.xArmed then
    .next (raise { s with tsu := { s.tsu with xArmed := false, xIn := none } } pTSU 13)
  else .next s

/-- ANNOUNCE (R263, R272): the master that is now chosen; a different one is a loss of the PTP source. -/
def execAnnounce (id : Nat) (s : State) : Host.Outcome State Fault Refusal :=
  if id = masterId s ∨ !ptpSlave s then .next s
  else .next (sourceLost (raise (puts s [(ETH.GMIDH_ID, id / 2 ^ 32), (ETH.GMIDL_ID, id)]) pETH 10) 2)

/-! ### Page TSU (R258–R261, R274, R277) -/

/-- The combined increment of an image. -/
def incOf (s : State) : Nat := increment36 s

/-- The reasons a word of page TSU is rejected beyond the fields' own legal sets. -/
def violTSU (s img : State) (src : Src) (off : Nat) (w : Word) : List Viol :=
  if off = 0x40 then
    let l := [get img TSU.TCTL_SRC1, get img TSU.TCTL_SRC2, get img TSU.TCTL_SRC3].filter (· != 0)
    viol (!decide l.Nodup) .range off
  else if off = 0x48 ∨ off = 0x4C then
    viol (decide (incOf img < incMin) || decide (incMax < incOf img)) .range off ++
    viol (flag img TSU.TCTL_SERVO && chg s img (if off = 0x48 then TSU.INCLO_FRAC else TSU.INCHI_INT) && src != .mgp) .auth off
  else if off = 0x70 then
    match wbits w 3 0 with
    | 0 => []
    | 1 => viol (schActive s) .state off
    | 2 => viol (schActive s) .state off ++ viol (decide ((now32 s : Int) + tadj32 img < 0)) .range off
    | 3 => viol (!flag s TSU.TSTAT_AUNK) .state off
    | _ => [(.range, off)]
  else []

/-- The effect of a word of page TSU that commands: TCMD, and ASYM while a path step is handled. -/
def effTSU (s : State) (off : Nat) (w : Word) : State :=
  if off = 0x98 then asymWritten s
  else if off = 0x70 then
    match wbits w 3 0 with
    | 1 => timeSet s
    | 2 => timeStep s (tadj32 s)
    | 3 => endPath s
    | _ => s
  else s

/-- What a committed burst on page TSU does beyond setting its fields: an increment the host writes ends the servo's slew, and the order of
sources may select another one. -/
def afterTSU (old s : State) : State :=
  let s1 := if incOf old != incOf s then putB { s with tsu := { s.tsu with freq := incOf s } } TSU.TSTAT_SLEW false else s
  let s2 := ppsLost s1
  if get s2 TSU.TSTAT_SRC ≠ bestSource s2 then reselect s2 else s2

/-- What the time registers of page TSU read. -/
def viewTSU (s : State) (off : Nat) : Option Nat :=
  if off = 0x50 then some (s.time.sec / 2 ^ 32)
  else if off = 0x54 then some (s.time.sec % 2 ^ 32)
  else if off = 0x58 then some s.time.ns
  else if off = 0x5C then some (s.time.frac / 65536)
  else none

/-- The timestamp corrections that ECFG.MODE loads (R268); MODE 0 loads none. -/
def loadCorr (s : State) : State :=
  match get s ETH.ECFG_MODE with
  | 1 => puts s [(TSU.TXCORR_PS, 2890), (TSU.RXCORR_PS, 7120)]
  | 2 => puts s [(TSU.TXCORR_PS, 5600), (TSU.RXCORR_PS, 10400)]
  | _ => s

/-- TSU enters OFF: no source is selected (R276). -/
def tsuOff (s : State) : State :=
  setPState (puts s [(TSU.TSTAT_SRC, 0), (TSU.TSTAT_FRN, 1), (TSU.TSTAT_PSH, 0), (TSU.TSTAT_AUNK, 0), (TSU.TSTAT_SLEW, 0)]) pTSU stOFF

/-! ### Page ETH (R268, R278) -/

/-- Whether any management session runs on the Ethernet port. -/
def ethSession (s : State) : Bool := s.sessions.any fun e => match e.2 with
  | some x => x.path = .eth
  | none => false

/-- The reasons a word of page ETH is rejected beyond the fields' own legal sets. -/
def violETH (s img : State) (off : Nat) : List Viol :=
  if off = 0x40 then viol (chg s img ETH.ECFG_MODE && ethSession s) .state off
  else if off = 0x5C then viol (chg s img ETH.PTPCFG_TRANS && ethSession s) .state off
  else []

/-- What a committed burst on page ETH does beyond setting its fields: MODE loads the timestamp corrections (R268); DOM or TRANS loses
the PTP source. -/
def afterETH (old s : State) : State :=
  let s1 := if chg old s ETH.ECFG_MODE then loadCorr s else s
  if chg old s ETH.PTPCFG_DOM || chg old s ETH.PTPCFG_TRANS then sourceLost s1 2 else s1

/-- ETH_LINK_UP (R278). -/
def execEthLinkUp (s : State) : Host.Outcome State Fault Refusal :=
  if pstate s pETH = stIDLE ∧ get s ETH.ECFG_MODE ≠ 0 then
    .next (raise (setPState (puts s [(ETH.ELNK_UP, 1), (ETH.ELNK_BLK, 1)]) pETH stRUN) pETH 8)
  else .next s

/-- ETH_LINK_DOWN (R278). -/
def execEthLinkDown (s : State) : Host.Outcome State Fault Refusal :=
  if flag s ETH.ELNK_UP then
    .next (raise (setPState (puts s [(ETH.ELNK_UP, 0), (ETH.ELNK_BLK, 0)]) pETH stIDLE) pETH 9)
  else .next s

end Sys2Proof.Machine
end

