-- ==== Sys2Proof/Machine/Link.lean ====
section
/-! DEFINITION. Trunk lanes and the twin link's lanes (R279–R301): training, bring-up, codewords, link messages, lanes, fallback, quiet
idle, margin, link timing, and pages TKE and TKW. -/

namespace Sys2Proof.Machine

/-! ### Topology (R309, R315) -/

/-- Egress restarts at the oldest unacknowledged block of every context (R315). -/
def rewind (s : State) : State :=
  { s with cnv := { s.cnv with blocks := s.cnv.blocks.map fun b => if b.acked then b else { b with sent := false } } }

/-- DOM follows its ports (R324). -/
def refreshDom (s : State) : State := follow pDOM (fun s => linkRuns s 0 || linkRuns s 1) s

/-- The fields of a TOPO message (R310). -/
def topoBody (g pos cause : Nat) : Nat := g * 2 ^ 36 + pos * 2 ^ 28 + cause * 2 ^ 24

/-- A link of this hub goes up or down, or relay changes (R309): TOPO, a new generation on the other ports, egress rewinds. -/
def topoChange (s : State) (port cause : Nat) : State :=
  if pstate s pDOM = stOFF then s
  else
    let g := (get s DOM.TOPOG_G + 1) % 256
    let s1 := rewind (raise (put s DOM.TOPOG_G g) pDOM 11)
    [0, 1].foldl (fun s p => if p = port then s else sendMsg s p 11 (topoBody g (get s DOM.DPOS_POS) cause)) s1

/-! ### Transmitter taps (R284) -/

/-- Whether taps lie in their ranges and sum limit (R284). -/
def tapsOk (a b c : Int) : Bool :=
  decide (-16 ≤ a) && decide (a ≤ 0) && decide (32 ≤ b) && decide (b ≤ 64) && decide (-24 ≤ c) && decide (c ≤ 0) &&
    decide (a.natAbs + b.natAbs + c.natAbs ≤ 64)

/-- The step a request asks for. -/
def tapStep (r : Nat) : Int := if r = 1 then 1 else if r = 2 then -1 else 0

/-- Serve the request for tap `i` (0: c(−1), 1: c(0), 2: c(+1)): hold answers "not updated", a request before that is ignored. -/
def tapRequest (x : Lane) (i r : Nat) : Lane :=
  let sh := 2 ^ (4 - 2 * i)
  let st := x.stat / sh % 4
  let put (v : Nat) : Nat := x.stat - st * sh + v * sh
  if r = 0 then { x with stat := put 0 }
  else if st ≠ 0 then x
  else
    let d := tapStep r
    let y := if i = 0 then { x with cm1 := x.cm1 + d } else if i = 1 then { x with c0 := x.c0 + d } else { x with cp1 := x.cp1 + d }
    if tapsOk y.cm1 y.c0 y.cp1 then { y with stat := put 1 } else { x with stat := put 2 }

/-- Serve a request word RM1, R0, RP1, PRE (7 bits); PRE before every status is back at "not updated" is ignored. -/
def serveTaps (x : Lane) (req : Nat) : Lane :=
  if req % 2 = 1 then (if x.stat = 0 then { x with cm1 := 0, c0 := 64, cp1 := 0, stat := 21 } else x)
  else tapRequest (tapRequest (tapRequest x 0 (req / 32 % 4)) 1 (req / 8 % 4)) 2 (req / 2 % 4)

/-- One two-bit request of this receiver (R284): kept until the far status shows an answer, then hold; from hold, with the far status "not
updated", the next step is the receiver's own choice, a free value. -/
def nextStep (r st free : Nat) : Nat := if r ≠ 0 then (if st ≠ 0 then 0 else r) else if st = 0 then free % 3 else 0

/-- What this receiver asks of the far taps next (R284), after the statuses `st` of R283 [37:32]: RM1, R0, RP1, PRE. -/
def nextReq (r st free : Nat) : Nat :=
  if r % 2 = 1 then (if st / 16 % 4 ≠ 0 ∧ st / 4 % 4 ≠ 0 ∧ st % 4 ≠ 0 then 0 else 1)
  else nextStep (r / 32 % 4) (st / 16 % 4) free * 32 + nextStep (r / 8 % 4) (st / 4 % 4) (free / 3) * 8 +
    nextStep (r / 2 % 4) (st % 4) (free / 9) * 2

/-- Set or clear lane `k` in a mask. -/
def laneSet (m k : Nat) (b : Bool) : Nat := maskOf ((List.range 4).filter fun i => if i = k then b else bit m i)

/-- The lanes a link has. -/
def allLanes (l : Nat) : Nat := if l < 2 then 15 else 3

/-! ### Bring-up and link down (R285, R292, R300) -/

/-- A link's block state changes: the page's, or the twin link's own. -/
def setLinkSt (s : State) (l v : Nat) : State := if l < 2 then setPState s (pTKE + l) v else setLink s l { link s l with st := v }

/-- Start bring-up at step 1. -/
def startBringup (s : State) (l : Nat) : State :=
  let s1 := setLinkSt (setLink s l { st := (link s l).st, pass := (link s l).pass }) l stARMED
  trainLanes s1 l (allLanes l) (ownField (link s1 l) false none)

/-- The passthrough buffer of a trunk port is discarded: the frames that came in on it and wait to leave on the other one (R317). -/
def dropPass (s : State) (l : Nat) : State := if l < 2 then setLink s (1 - l) { link s (1 - l) with pass := [] } else s

/-- A link leaves RUN or ARMED for state `v`: LINKDN if it ran, its buffers are discarded, the topology changes, and trunk time taken
from it is lost, with the TDIST heard there. -/
def linkLeave (s0 : State) (l v : Nat) : State :=
  let ran := linkRuns s0 l
  let s := { s0 with dom := { s0.dom with oup := tset s0.dom.oup l none none } }
  let s1 := setLinkSt (dropPass (setLink s l { st := (link s l).st, pass := (link s l).pass }) l) l v
  if ran ∧ l < 2 then
    let s2 := topoChange (refreshDom (raiseL s1 l 9)) l 1
    if get s2 DOM.HPATH_TSIDE = l ∧ flag s2 TSU.TSTAT_QTK then sourceLost s2 1 else s2
  else s1

/-- A link down: back to bring-up (R292). -/
def linkDown (s : State) (l : Nat) : State := startBringup (linkLeave s l stARMED) l

/-- A link's number in range. -/
def withLink (l : Nat) (s : State) (f : State) : Host.Outcome State Fault Refusal := if 3 ≤ l then .fault .noSuchUnit else
  if linkSt s l = stOFF then .next s else .next f

/-- Serve a request that has come for one of this end's transmit lanes; a changed status is reported. -/
def takeRequest (s : State) (l k req : Nat) : State :=
  let x := link s l
  let y := serveTaps (laneAt x k) req
  setLink s l { x with lanes := tset x.lanes k y {} }

/-! ### Replay (R292) -/

/-- Whether CSN `a` is `b` or lies after it. -/
def csnFrom (a b : Nat) : Bool := decide ((a + 4096 - b) % 4096 < 2048)

/-- LACK frees the codewords it covers. -/
def takeLack (s : State) (l csn : Nat) : State :=
  let x := link s l
  let s1 := setLink s l { x with replay := x.replay.filter fun c => !csnFrom csn c.csn, lim := 0 }
  dealHeld (link s1 l).held.length s1 l

/-- LACK (R292). -/
def execLack (l csn : Nat) (s : State) : Host.Outcome State Fault Refusal := withLink l s (takeLack s l csn)

/-- NAK sends a kept codeword again. -/
def takeNak (s : State) (l csn : Nat) : State := resendCws s l ((link s l).replay.filter fun c => c.csn = csn)

/-- NAK (R292). -/
def execNak (l csn : Nat) (s : State) : Host.Outcome State Fault Refusal := withLink l s (takeNak s l csn)

/-- The active lanes change or a direction falls back: the times of an exchange under way are discarded, the count since the last change
starts, and trunk time taken from the port is no longer valid (R263, R299, R311). -/
def lanesChanged (s : State) (l : Nat) : State :=
  let s1 := setLink s l { link s l with since := 0, t1s := [], t4s := [], parts := [], dOut := none, dIn := none }
  if l < 2 ∧ get s DOM.HPATH_TSIDE = l then sourceLost s1 1 else s1

/-- LDROP takes lanes from the transmitter: codewords lost there are resent, a margin drop is answered with LMASK, and the lanes carry
training frames (R294). -/
def takeLdrop (s : State) (l lanes : Nat) (lost : Bool) (frm : Nat) : State :=
  if !linkRuns s l then s
  else
    let x := link s l
    let m := x.txact &&& (15 - lanes % 16)
    if m = 0 then linkDown s l
    else
      let s1 := lanesChanged (setLink s l { x with txact := m, quietPrev := x.quietPrev &&& (15 - lanes % 16) }) l
      let s2 := if lost then resendCws s1 l (x.replay.filter fun c => bit lanes c.lane && csnFrom c.csn frm)
        else sendLinkMsg s1 l 5 (m * 2 ^ 34)
      trainLanes s2 l (x.txact &&& lanes) (loneField x)

/-- LDROP (R293, R298): the far receiver no longer takes some lanes. -/
def execLdrop (l lanes : Nat) (lost : Bool) (frm : Nat) (s : State) : Host.Outcome State Fault Refusal :=
  withLink l s (takeLdrop s l lanes lost frm)

/-- Lanes that send data again after training: the precoder starts at 0 (R281), and no LINK field waits. -/
def freshLanes (t : List (Nat × Lane)) (m : Nat) : List (Nat × Lane) :=
  (lanesOf m).foldl (fun t k => tset t k { tget t k {} with lq := [], y := 0 } {}) t

/-- Lanes that receive data again after training: the last index is 0 (R281), and no attempt has failed. -/
def freshRx (t : List (Nat × Lane)) (m : Nat) : List (Nat × Lane) :=
  (lanesOf m).foldl (fun t k => tset t k { tget t k {} with ry := 0, tries := 0, req := 0, rq := [], bad := 0, last := none } {}) t

/-- LADD gives lanes back to the transmitter, which answers with LMASK. -/
def takeLadd (s : State) (l lanes : Nat) : State :=
  if !linkRuns s l then s
  else
    let x := link s l
    let m := x.txact ||| (lanes &&& allLanes l)
    let x1 := { x with txact := m, quietPrev := x.quietPrev ||| (lanes &&& allLanes l), lanes := freshLanes x.lanes (m &&& (15 - x.txact)) }
    let s1 := sendLinkMsg (setLink s l x1) l 5 (m * 2 ^ 34)
    if m = x.txact then s1 else lanesChanged s1 l

/-- LADD (R294): the transmitter answers with LMASK and deals to the lane again. -/
def execLadd (l lanes : Nat) (s : State) : Host.Outcome State Fault Refusal := withLink l s (takeLadd s l lanes)

/-- LMASK gives the lanes the far transmitter uses. -/
def takeLmask (s : State) (l lanes : Nat) (q : Bool) : State :=
  if !linkRuns s l then s
  else
    let x := link s l
    let m := lanes &&& allLanes l
    let new := if q then 0 else m &&& (15 - x.rxact)
    let x1 := { x with rxact := m, retr := x.retr &&& (15 - new), qual := x.qual ||| new
                       rxQuiet := if q then !x.rxQuiet else x.rxQuiet, rxWake := if q && x.rxQuiet then some (nowNs s) else x.rxWake
                       lanes := freshRx x.lanes (m &&& (15 - x.rxact)) }
    let s1 := if m = x.rxact then setLink s l x1 else lanesChanged (setLink s l x1) l
    if new = 0 then s1 else raiseL s1 l 11

/-- LMASK (R291, R294, R297): the lanes the far transmitter uses. A lane that rejoins raises LANEUP and is adapt-qualified (the 4 µs of R294
pass unseen, log entry 5); Q = 1 enters or leaves quiet idle of the receive direction. -/
def execLmask (l lanes : Nat) (q : Bool) (s : State) : Host.Outcome State Fault Refusal := withLink l s (takeLmask s l lanes q)

/-- Send LTRN for a lane (R291, R294): what this receiver asks, PCREQ, FCOK and RRDY, and the status of the own taps. -/
def sendLtrn (s : State) (l k : Nat) : State :=
  let x := link s l
  let n := laneAt x k
  sendLinkMsg s l 6 (k * 2 ^ 36 + n.req * 2 ^ 29 + (bit x.pcrx k).toNat * 2 ^ 28 + x.fclk.toNat * 2 ^ 27 + x.rrdyOwn.toNat * 2 ^ 26 +
    n.stat * 2 ^ 20)

/-- Whether LKP runs (R352). -/
def lkpRuns (s : State) : Bool := get s (MGT.PRST_ST 2) = 2

/-- This receiver's next request for the far taps of a lane, after their statuses; LKP steers them (R352). -/
def askTaps (s : State) (l k stat : Nat) : State :=
  if lkpRuns s then
    let d := draw s
    let x := link d.2 l
    let n := laneAt x k
    setLink d.2 l { x with lanes := tset x.lanes k { n with req := nextReq n.req stat (Config.freeWord d.1).toNat, far := stat } {} }
  else s

/-- This receiver steers the taps of a lane by LTRN, from the statuses last told (R294, R295). -/
def steer (s : State) (l k : Nat) : State := if lkpRuns s then sendLtrn (askTaps s l k (laneAt (link s l) k).far) l k else s

/-- LTRN serves the far receiver's request, and is answered. -/
def takeLtrn (s : State) (l lane req stat : Nat) : State :=
  if !linkRuns s l ∨ 4 ≤ lane ∨ req / 256 % 4 = 3 ∨ req / 64 % 4 = 3 ∨ req / 16 % 4 = 3 ∨ stat / 16 % 4 = 3 ∨
      stat / 4 % 4 = 3 ∨ stat % 4 = 3 then s
  else
    let s1 := takeRequest s l lane (req / 8)
    let x := link s1 l
    let s2 := setLink s1 l { x with pctx := laneSet x.pctx lane (bit req 2) }
    sendLtrn (if bit x.retr lane ∨ (x.lost ∧ bit x.rxact lane) then askTaps s2 l lane stat else s2) l lane

/-- LTRN (R294, R295): tap requests and statuses of a lane in lone retrain, or of the active ones in a fallback. -/
def execLtrn (l lane req stat : Nat) (s : State) : Host.Outcome State Fault Refusal := withLink l s (takeLtrn s l lane req stat)

/-- TRANSPORT_NOP (R289). -/
def execTransportNop (l : Nat) (s : State) : Host.Outcome State Fault Refusal := if 3 ≤ l then .fault .noSuchUnit else .next s

/-- LINK_NOP (R291). -/
def execLinkNop (l : Nat) (s : State) : Host.Outcome State Fault Refusal := if 3 ≤ l then .fault .noSuchUnit else .next s

/-! ### Clock fallback (R285, R295) -/

/-- CLKLOST stops the transmitter's codewords; it sends NRZ training frames. -/
def takeClklost (s : State) (l : Nat) : State :=
  if !linkRuns s l ∨ (link s l).stalled then s
  else
    let s1 := lanesChanged (setLink s l { link s l with stalled := true, fbtx := true, pctx := 0 }) l
    let x := link s1 l
    trainLanes s1 l x.txact (ownField x false none)

/-- CLKLOST (R295): the far receiver has lost the forwarded clock. -/
def execClklost (l : Nat) (s : State) : Host.Outcome State Fault Refusal := withLink l s (takeClklost s l)

/-- The transmitter counts down and resumes with the first unacknowledged codeword (R295 step 4). -/
def resumeTx (s : State) (l : Nat) : State :=
  let s0 := countdown s l (link s l).txact
  let x := link s0 l
  let s1 := resendCws (setLink s0 l { x with stalled := false }) l x.replay
  dealHeld (link s1 l).held.length s1 l

/-- CLKFALLBACK (R285 step 4, R295): this receiver loses, or in bring-up does not find, the forwarded clock; while data runs it says
so until data resumes, and steers the taps of its active lanes anew. -/
def execClkfallback (l : Nat) (s : State) : Host.Outcome State Fault Refusal :=
  withLink l s (
    let x := link s l
    if x.fbrx then s
    else
      let s1 := setLink (raiseL s l 12) l { x with fbrx := true, fclk := false, pcrx := 0, rrdyOwn := false }
      if linkRuns s l then
        let s2 := sendLinkMsg (lanesChanged (setLink s1 l { link s1 l with lost := true }) l) l 7 0
        (lanesOf x.rxact).foldl (fun s k => steer s l k) s2
      else if linkSt s l = stARMED then s1
      else s)

/-- FCOK_TIMEOUT (R285 step 4): the direction stays NRZ. -/
def execFcokTimeout (l : Nat) (s : State) : Host.Outcome State Fault Refusal :=
  withLink l s (if linkSt s l = stARMED ∧ !(link s l).fcokFar then
    raiseL (setLink s l { link s l with fbtx := true }) l 12 else s)

/-! ### Training frames received, and data begins (R285) -/

/-- The receiver corrects a position's polarity, reorders its lanes to match LANE (R282), and measures the lane's skew, a free value within
±256 symbols, or ±1,263,226 × 2^-16 ns (R285 step 3, R299). -/
def placeLane (s : State) (l pos k : Nat) (inv : Bool) : State :=
  let d := draw s
  let x := link d.2 l
  let skew : Int := (((Config.freeWord d.1).toNat % 2526453 : Nat) : Int) - 1263226
  setLink d.2 l { x with inv := laneSet x.inv pos inv, order := tset x.order pos k pos
                         lanes := tset x.lanes k { tget x.lanes k {} with skew := skew } {} }

/-- What a training frame says of the data that follows (R283, R285 step 6): its pattern and countdown; a countdown fixes the direction's
mode and the lane's precoding, and at its end data resumes. -/
def takeCountdown (x : Link) (k field : Nat) : Link :=
  if bit field 30 then
    let cnt := cbits field 29 27
    { x with rxPam := bit field 31, rxCd := some cnt, fbrx := x.fbrx || !bit field 31, pcrx := laneSet x.pcrx k (bit field 23)
             lost := x.lost && cnt != 0 }
  else { x with rxPam := bit field 31, rxCd := none }

/-- TRAINING_FRAME (R282–R285): the marker gives the polarity, and a good control field the lane, FCOK, RRDY, PCREQ and the tap requests for
the transmitter of its lane; it is answered with this receiver's next request, and the receiver then holds the forwarded clock unless
CLKFALLBACK has said otherwise. In RUN it ends a fallback's wait by RRDY; a lone retrain's frames carry only LANE and PAM, and its taps are
steered by LTRN (R294). -/
def execTrainingFrame (l lane : Nat) (sym : List Int) (s : State) : Host.Outcome State Fault Refusal :=
  withLink l s (match readFrame sym with
    | none => s
    | some (inv, field) =>
      let k := cbits field 26 24
      if !ctlGood field ∨ 4 ≤ lane ∨ !bit (allLanes l) k then s
      else if linkSt s l = stARMED then
        let s1 := takeRequest (placeLane s l lane k inv) l k (cbits field 47 41)
        let x := takeCountdown (link s1 l) k field
        let x1 := { x with fcokFar := bit field 39, rrdyFar := x.rrdyFar || bit field 38, pctx := laneSet x.pctx k (bit field 40)
                           fclk := x.fclk || !x.fbrx }
        let s2 := setLink s1 l x1
        let s3 := if x1.rrdyOwn then s2 else askTaps s2 l k (cbits field 37 32)
        sendTrain s3 l k (ownField (link s3 l) x1.pam none k)
      else if !linkRuns s l then s
      else
        let s0 := placeLane s l lane k inv
        let s1 := setLink s0 l (takeCountdown (link s0 l) k field)
        let s2 := if bit (link s1 l).retr k then steer s1 l k else s1
        if !(link s l).stalled then s2
        else
          let s3 := takeRequest s2 l k (cbits field 47 41)
          if bit field 38 then resumeTx s3 l else s3)

/-- The lanes this receiver requests precoding on, as LCFG.PCM says; with PCM = 0 each lane's request follows a measurement the spec leaves to
the hardware: a free value. -/
def precodeLanes (s : State) (l : Nat) : Nat × State :=
  let d := draw s
  let pcm := if l < 2 then get s (TK.LCFG_PCM l) else 0
  (if (link s l).fbrx then 0 else if pcm = 1 then 0 else if pcm = 2 then allLanes l else (Config.freeWord d.1).toNat % 16 &&& allLanes l, d.2)

/-- RRDY (R285 step 5): this receiver has finished training, while LKP runs (R352). -/
def execRrdy (l : Nat) (s : State) : Host.Outcome State Fault Refusal :=
  withLink l s (
    if !lkpRuns s then s
    else if linkSt s l = stARMED then
      let d := precodeLanes s l
      let x := { link s l with rrdyOwn := true, pcrx := d.1 }
      trainLanes (setLink d.2 l x) l (allLanes l) (ownField x x.pam none)
    else if linkRuns s l ∧ (link s l).fbrx then
      let x := { link s l with rrdyOwn := true }
      trainLanes (setLink s l x) l x.txact (ownField x false none)
    else s)

/-- The sources a CREDIT on a port states (R319): this hub, if a frame of its own left there within the last 10 ms, and those it hears on the
far port while that runs. -/
def srcsOn (s : State) (l : Nat) : Nat :=
  let own := (link s l).ownT.any fun t => decide (nowNs s ≤ t + 10000000)
  min 255 (own.toNat + if linkRuns s (1 - l) then (if l = 0 then get s DOM.SRCS_SW else get s DOM.SRCS_SE) else 0)

/-- Send CREDIT on a trunk port (R317). -/
def sendCredit (s : State) (l : Nat) : State :=
  let x := link s l
  sendMsg (setLink s l { x with freed := 0 }) l 5 (x.grant % 65536 * 2 ^ 28 + srcsOn s l * 2 ^ 20)

/-- A hub's stored authority record (R304). -/
def storedRec (s : State) : List Word :=
  [wd (1 * 65536), wd (get s DOM.DID_ID), wd (get s DOM.AGEN_GEN), wd (s.dom.recPos.getD 0)] ++ List.replicate 12 0#32 ++ exactly 24 s.dom.recSig

/-- The distribution frame of an authority record (DKIND 3, R305, R362). -/
def recFrame (s : State) (rec : List Word) : List Word :=
  let m0 := wd (2 * 2 ^ 28 + 255 * 2 ^ 20 + get s DOM.DPOS_POS * 2 ^ 10 + get s DOM.DPOS_UNIT * 2 ^ 8)
  [m0, wd (3 * 65536 + 40)] ++ timeWords (now16 s) (frnNow s) (islNow s) ++ rec

/-- A hub tells the neighbour it has joined its stored record, ahead of every other frame (R306). -/
def tellRecord (s : State) (p : Nat) : State := if s.dom.recPos.isSome then sendFrame s p 1 (recFrame s (storedRec s)) else s

/-- The authority of the part beyond a port has been heard, or none is heard there: table and stop frames may cross (R306). -/
def meet (s : State) (p : Nat) : State := setLink s p { link s p with met := true }

/-- LINKUP (R285 steps 6 and 7): after the countdown, data begins on the locked lanes of each direction with CSN 0; CAPS goes out, and a
trunk port grants its credit and tells its stored record. -/
def execLinkup (l : Nat) (lanes : LaneMasks) (us : Nat) (s : State) : Host.Outcome State Fault Refusal :=
  withLink l s (
    let x := link s l
    let r := lanes.rx &&& allLanes l
    let m := lanes.tx &&& allLanes l
    if linkSt s l = stARMED ∧ x.rrdyOwn ∧ x.rrdyFar ∧ r ≠ 0 ∧ m ≠ 0 ∧ lkpRuns s then
      let x1 := { x with rxact := r, txact := m, retr := allLanes l &&& (15 - r), park := 0, qual := r, txn := 0, rxc := none, nextLane := 3
                         pctx := if x.fbtx then 0 else x.pctx &&& m, pcrx := x.pcrx &&& r, failed := false
                         lanes := freshRx (freshLanes x.lanes m) r }
      let s1 := setLinkSt (setLink (countdown s l (allLanes l)) l x1) l stRUN
      let s2 := sendMsg s1 l 1 (ownMax l * 2 ^ 32 + 2 ^ 28)
      if l < 2 then tellRecord (topoChange (refreshDom (sendCredit (raiseL (put s2 (TK.BRT_US l) us) l 8) l)) l 2) l else s2
    else s)

/-- TRNFAIL (R285): 40 ms without data. -/
def execTrnfail (l : Nat) (s : State) : Host.Outcome State Fault Refusal :=
  withLink l s (if linkSt s l = stARMED then
    raiseL (bumpSatL (setLink s l { link s l with failed := true }) l TK.TRNF_N) l 15 else s)

/-- BRINGUP_RETRY (R285, R290). -/
def execBringupRetry (l : Nat) (s : State) : Host.Outcome State Fault Refusal :=
  withLink l s (if linkSt s l = stARMED ∧ (link s l).failed then startBringup s l else s)

/-- A PAUSE is held or ends: while it is held nothing is counted, and the count starts again at its end (R340). -/
def holdPause (s : State) (on : Bool) : State :=
  if on || flag s TWL.TROLE_PAUSE then putB { s with twl := { s.twl with absent := 0 } } TWL.TROLE_PAUSE on else s

/-- A checkpoint that is being received is discarded whole (R337). -/
def discardCk (s : State) : State :=
  match s.twl.rx with
  | [] => s
  | f :: _ =>
    let s1 := raise (bumpSat { s with twl := { s.twl with rx := [] } } TWL.NCKD_N) pTWL 17
    if newerBy 32 f.cgen (get s TWL.CGEN_N) then raise (putB s1 TWL.TROLE_CFGB true) pTWL 13 else s1

/-- The onset of silence (R328, R330, R337, R340, R346): TWIN_LINK_LOST once, a checkpoint that is being received is discarded, and a held
PAUSE ends. -/
def fallSilent (was s : State) : State :=
  if twinSilent was then s else raise (holdPause (discardCk s) false) pTWL 9

/-- A partner that fails a condition (R328, R330): PAIRFAIL once, and the link is then treated as silent. -/
def failPair (s : State) : State :=
  let s1 := { s with twl := { s.twl with paired := false, pairFail := true } }
  fallSilent s (if s.twl.pairFail then s1 else raise s1 pTWL 16)

/-- CAPS (R290): the far end's maximum; a trunk neighbour that advertises too little takes the link down. -/
def execCaps (l maxf _ver : Nat) (s : State) : Host.Outcome State Fault Refusal :=
  withLink l s (
    if !linkRuns s l then s
    else if l < 2 ∧ maxf < 2057 then
      let s1 := linkLeave (raiseL (bumpSatL s l TK.TRNF_N) l 15) l stARMED
      setLink s1 l { link s1 l with failed := true }
    else
      let s1 := if l = 2 ∧ maxf < 4095 then failPair s else s
      drainOwn (link s1 l).own.length (setLink s1 l { link s1 l with farMax := some maxf }) l)

/-- LNKTO (R292). -/
def execLnkto (l : Nat) (s : State) : Host.Outcome State Fault Refusal := withLink l s (if linkRuns s l then linkDown s l else s)

/-! ### Codewords received (R286, R287, R291, R292) -/

/-- Deliver codewords that now stand in order. -/
def deliverCws : Nat → Link → Link
  | 0, x => x
  | f + 1, x =>
    let n := match x.rxc with
      | none => 0
      | some c => (c + 1) % 4096
    match x.reorder.find? fun e => e.1 = n with
    | none => x
    | some e => deliverCws f { x with rxc := some n, reorder := x.reorder.filter fun e => e.1 ≠ n, rxWords := x.rxWords ++ e.2
                                      nakd := x.nakd.filter (· != n) }

/-- The CSNs to ask for again: not received good, not asked for yet, with a codeword 8 or more above them received. A codeword that now
stands in order asks for none. -/
def missing (x : Link) (csn : Nat) : List Nat :=
  let n := match x.rxc with
    | none => 0
    | some c => (c + 1) % 4096
  let ahead := (csn + 4096 - n) % 4096
  if 1024 ≤ ahead then []
  else ((List.range (ahead - 7)).map fun i => (n + i) % 4096).filter fun m => !(x.reorder.any fun e => e.1 = m) && !x.nakd.contains m

/-- A good codeword is descrambled, ordered by CSN and delivered; missing ones are asked for, and a LACK covers what is delivered
(R286, R287, R292). -/
def takeCw (s : State) (l lane : Nat) (c : RxCw) : State :=
  let s0 := if 0 < c.corr then bumpL s l TK.NCORR_N else s
  let s1 := if l = 2 then { s0 with twl := { s0.twl with silent := false, goodC := s0.cyc } } else s0
  let x := link s1 l
  let n := match x.rxc with
    | none => 0
    | some c => (c + 1) % 4096
  if 1024 ≤ (c.csn + 4096 - n) % 4096 ∨ (x.reorder.any fun e => e.1 = c.csn) then setLink s1 l { x with rxWords := [] }
  else
    let above (e : Nat × List Word) : Bool := decide ((e.1 + 4096 - c.csn) % 4096 < 1024)
    let first := !x.nakd.contains c.csn && !(x.dropped && x.reorder.any above)
    let x1 := { x with reorder := x.reorder ++ [(c.csn, scramble (scrInit c.csn) c.ws)], rxWords := [] }
    let x2 := deliverCws 1025 x1
    let ask := missing x2 c.csn
    let s2 := setLink s1 l { x2 with nakd := x2.nakd ++ ask, dropped := x.dropped && (x.reorder.isEmpty || !x2.reorder.isEmpty) }
    let s3 := ask.foldl (fun s m => sendLinkMsg s l 2 (m * 2 ^ 26)) s2
    let s4 := if x2.rxc = x.rxc then s3 else sendLinkMsg s3 l 1 (x2.rxc.getD 0 * 2 ^ 26)
    if c.csn % 256 = 0 ∧ first then
      let t := lessSkew (now16 s) (laneAt x lane)
      let s5 := setLink s4 l { link s4 l with t4s := tset (link s4 l).t4s (c.csn / 256) t 0 }
      flushLink (queueTime s5 l 1 (c.csn / 256) t) l
    else s4

/-! ### Losing and regaining a lane (R293, R294, R298) -/

/-- A lane is held lost (R293): LDROP from the first CSN it failed to deliver; the lane retrains alone, its taps steered by LTRN. -/
def laneLost (s : State) (l lane frm : Nat) : State :=
  let x := link s l
  if !linkRuns s l ∨ !bit x.rxact lane ∨ bit x.retr lane then s
  else if laneSet x.rxact lane false = 0 then linkDown (raiseL s l 10) l
  else
    let s1 := setLink s l { x with rxact := laneSet x.rxact lane false, qual := laneSet x.qual lane false, retr := laneSet x.retr lane true
                                   dropped := true }
    let s2 := lanesChanged (raiseL (sendLinkMsg s1 l 3 (2 ^ lane * 2 ^ 34 + 2 ^ 33 + frm % 4096 * 2 ^ 21)) l 10) l
    steer s2 l lane

/-- LANEDN (R293): a lane loses lock. -/
def execLanedn (l lane frm : Nat) (s : State) : Host.Outcome State Fault Refusal := withLink l s (laneLost s l lane frm)

/-- LANE_READY (R294), while LKP runs (R352): the receiver decides PCREQ as at bring-up and says it by LTRN, then LADD. -/
def execLaneReady (l lane : Nat) (s : State) : Host.Outcome State Fault Refusal :=
  withLink l s (if linkRuns s l ∧ bit (link s l).retr lane ∧ lkpRuns s then
    let d := precodeLanes s l
    let x := link d.2 l
    let s1 := setLink d.2 l { x with pcrx := laneSet x.pcrx lane (bit d.1 lane) }
    sendLinkMsg (sendLtrn s1 l lane) l 4 (2 ^ lane * 2 ^ 34) else s)

/-- RETRAIN_TIMEOUT (R294), while LKP runs (R352): the attempt restarts from preset; the tenth failure parks the lane. -/
def execRetrainTimeout (l lane : Nat) (s : State) : Host.Outcome State Fault Refusal :=
  withLink l s (
    let x := link s l
    if !linkRuns s l ∨ !bit x.retr lane ∨ !lkpRuns s then s
    else
      let n := (laneAt x lane).tries + 1
      let x1 := { x with lanes := tset x.lanes lane { laneAt x lane with tries := n } {} }
      if n < 10 then sendLtrn (setLink s l { x1 with lanes := tset x1.lanes lane { laneAt x1 lane with req := 1 } {} }) l lane
      else raiseL (setLink s l { x1 with retr := laneSet x.retr lane false, park := laneSet x.park lane true }) l 16)

/-- One lane of a margin measurement: a low lane is dropped where at least 2 other lanes stay and none retrains (R298). -/
def marginLane (l : Nat) (mv : List Nat) (s : State) (k : Nat) : State :=
  let x := link s l
  let v := min 255 (mv.getD k 0)
  let s1 := if l < 2 then put s (TK.MARG_MV l k) v else s
  let lim := if l < 2 then get s (TK.MARGMIN_MV l) else 24
  if lim ≤ v then s1
  else if 2 ≤ (lanesOf (laneSet x.rxact k false)).length ∧ x.retr = 0 then
    sendLinkMsg (setLink s1 l { x with retr := laneSet x.retr k true }) l 3 (2 ^ k * 2 ^ 34)
  else raiseL s1 l 13

/-- MARGIN (R298). -/
def execMargin (l : Nat) (mv : List Nat) (s : State) : Host.Outcome State Fault Refusal :=
  withLink l s (if linkRuns s l then (lanesOf (link s l).rxact).foldl (marginLane l mv) s else s)

/-! ### The link channel and codewords (R286, R291–R293) -/

/-- What a link message of a lane's link channel does, its 42 bits being `v` (R291); types 0 and 8 to 15 do nothing. -/
def linkMsg (s : State) (l v : Nat) : State :=
  match v / 2 ^ 38 with
  | 1 => takeLack s l (cbits v 37 26)
  | 2 => takeNak s l (cbits v 37 26)
  | 3 => takeLdrop s l (cbits v 37 34) (bit v 33) (cbits v 32 21)
  | 4 => takeLadd s l (cbits v 37 34)
  | 5 => takeLmask s l (cbits v 37 34) (bit v 33)
  | 6 => takeLtrn s l (cbits v 37 36) (cbits v 35 26) (cbits v 25 20)
  | 7 => takeClklost s l
  | _ => s

/-- A message of six good fields: the first good copy acts; a copy another lane has delivered already does not (R291). -/
def linkCopy (s : State) (l lane v : Nat) : State :=
  let x := link s l
  match x.seen with
  | some (w, m) => if v = w ∧ !bit m lane then setLink s l { x with seen := some (w, laneSet m lane true) }
    else linkMsg (setLink s l { x with seen := some (v, 2 ^ lane) }) l v
  | none => linkMsg (setLink s l { x with seen := some (v, 2 ^ lane) }) l v

/-- A LINK field of a good codeword on a lane (R291): START begins a message, six fields make one. -/
def linkField (s : State) (l lane f : Nat) : State :=
  let x := link s l
  let n := laneAt x lane
  let q := if bit f 7 then [f % 128] else if n.rq = [] then [] else n.rq ++ [f % 128]
  let s1 := setLink s l { x with lanes := tset x.lanes lane { n with rq := if q.length = 6 then [] else q } {} }
  if q.length = 6 then linkCopy s1 l lane (q.foldl (fun a y => a * 128 + y) 0) else s1

/-- The first CSN a lane has failed to deliver (R293): the first that has not come among those after the lane's last good one. -/
def firstLost (x : Link) (lane : Nat) : Nat :=
  let n := match x.rxc with
    | none => 0
    | some c => (c + 1) % 4096
  let from_ := match (laneAt x lane).last with
    | none => n
    | some c => if csnFrom (c + 1) n then (c + 1) % 4096 else n
  (((List.range 1024).map fun i => (from_ + i) % 4096).find? fun m => !(x.reorder.any fun e => e.1 = m)).getD from_

/-- A codeword on a lane does not decode: its link message is discarded (R291), and the eighth in a row loses the lane (R293). -/
def badCw (s : State) (l lane : Nat) : State :=
  let x := link s l
  let n := laneAt x lane
  let frm := if n.bad = 0 then firstLost x lane else n.frm
  let s1 := bumpL (setLink s l { x with lanes := tset x.lanes lane { n with rq := [], bad := n.bad + 1, frm := frm } {} }) l TK.NUNC_N
  if 8 ≤ n.bad + 1 then laneLost s1 l lane frm else s1

/-! ### Quiet idle (R297) -/

/-- QUIET (R297): no frame for QIDLE: one lane stays. -/
def execQuiet (l : Nat) (s : State) : Host.Outcome State Fault Refusal :=
  withLink l s (
    let x := link s l
    if l < 2 ∧ flag s (TK.LCFG_QEN l) ∧ linkRuns s l ∧ !x.quiet ∧ x.frames.isEmpty ∧ x.cur.isEmpty then
      let m := 2 ^ (lanesOf x.txact).headD 0
      let s1 := sendLinkMsg s l 5 (m * 2 ^ 34 + 2 ^ 33)
      lanesChanged (raiseL (setLink s1 l { link s1 l with quiet := true, exiting := false, quietPrev := x.txact, txact := m }) l 17) l
    else s)

/-- QUIET_EXIT (R297): a frame is due: the idle lanes send training frames. -/
def execQuietExit (l : Nat) (s : State) : Host.Outcome State Fault Refusal :=
  withLink l s (wake s l)

/-- QUIET_RESTORE (R297): LMASK restores the previous lanes. -/
def execQuietRestore (l : Nat) (s : State) : Host.Outcome State Fault Refusal :=
  withLink l s (
    let x := link s l
    if x.quiet ∧ x.exiting then
      let s1 := sendLinkMsg s l 5 (x.quietPrev * 2 ^ 34 + 2 ^ 33)
      let y := link s1 l
      lanesChanged (setLink s1 l { y with quiet := false, exiting := false, txact := x.quietPrev
                                          lanes := freshLanes y.lanes (x.quietPrev &&& (15 - x.txact)) }) l
    else s)

/-! ### Link timing (R299) -/

/-- A time put together from its three parts. -/
def timeOfParts (a b c : Nat) : Nat :=
  (a * 65536 + b / 65536) * sec16 + (b % 65536 * 16384 + c / 262144) * 65536 + c % 65536

/-- The delay and offset of an exchange, and their filtered values. -/
def finishExch (s : State) (l : Nat) : State :=
  let x := link s l
  match x.dOut, x.dIn with
  | some o, some i =>
    let asym : Int := if l < 2 then ps16 (get s (TK.LASYM_PS l)) else 0
    let e := ((o + i) / 2, (o - i - asym) / 2)
    let x1 := { x with dOut := none, dIn := none, exchs := (e :: x.exchs).take 64, since := x.since + 1 }
    let s1 := setLink s l x1
    let d := ofSigned 32 (sat32 (meanOf (x1.exchs.map (·.1)) / 256))
    let f := ofSigned 32 (sat32 (meanOf (x1.exchs.map (·.2)) / 256))
    if l < 2 then puts s1 [(TK.LDLY_D l, d), (TK.LOFS_OFS l, f)] else put s1 TWL.POFS_OFS f
  | _, _ => s

/-- TIME (R299): one third of a time of the far end; all three give its departure (DIR 0) or arrival (DIR 1) for a reference codeword. -/
def execTime (l part dir ref val : Nat) (s : State) : Host.Outcome State Fault Refusal :=
  withLink l s (
    if !linkRuns s l ∨ 3 ≤ part ∨ 2 ≤ dir then s
    else
      let x := link s l
      let key (p : Nat) : Nat := p + 4 * dir + 8 * ref
      let ps := tins (key part) val (terase (key part) x.parts)
      match ps.find? (fun e => e.1 = key 0), ps.find? (fun e => e.1 = key 1), ps.find? (fun e => e.1 = key 2) with
      | some a, some b, some c =>
        let t : Int := timeOfParts a.2 b.2 c.2
        let x1 := { x with parts := [0, 1, 2].foldl (fun m p => terase (key p) m) ps }
        let own := tget (if dir = 1 then x.t1s else x.t4s) ref 0
        if own = 0 then setLink s l x1
        else if dir = 1 then finishExch (setLink s l { x1 with dOut := some (t - own), t1s := tset x.t1s ref 0 0 }) l
        else finishExch (setLink s l { x1 with dIn := some (own - t), t4s := tset x.t4s ref 0 0 }) l
      | _, _, _ => setLink s l { x with parts := ps })

/-! ### Pages TKE and TKW (R300, R301) -/

/-- The lock of a link's lane PLL as CLK shows it (R407). -/
def lanePll (s : State) (l : Nat) (b : Bool) : State :=
  putB s (if l = 0 then CLK.PLLST_TKE else if l = 1 then CLK.PLLST_TKW else CLK.PLLST_TWN) b

/-- LANE_PLL_FAIL (R300, R349): lanes silent, FAULT and LINKDN from any state but OFF; for the twin link also FAULT of page TWL, except on a
unit strapped single. -/
def execLanePllFail (l : Nat) (s : State) : Host.Outcome State Fault Refusal :=
  withLink l s (
    if l < 2 then lanePll (raiseL (linkLeave s l stFAULT) l 9) l false
    else if s.twl.strap = 0 then s
    else lanePll (pageFault (linkLeave s 2 stFAULT) pTWL) 2 false)

/-- A trunk port enters IDLE from OFF or FAULT: bring-up starts where LCFG.AUTO is 1 (R300). -/
def portIdle (s : State) (p : Nat) : State := if flag s (TK.LCFG_AUTO p) then startBringup s p else s

/-- The reasons an LCMD of a trunk port is rejected. -/
def violTK (s : State) (p off : Nat) (w : Word) : List Viol :=
  if off = 0x40 then
    let st := linkSt s p
    match wbits w 3 0 with
    | 0 => []
    | 1 => viol (st = stOFF || st = stTEST || st = stFAULT) .state off
    | 2 => viol (st = stOFF || st = stFAULT) .state off
    | 3 => viol (st != stIDLE) .state off
    | 4 => viol (st != stRUN) .state off
    | _ => [(.range, off)]
  else []

/-- The effect of an accepted LCMD: TRAIN, STOP, TEST, LRETRY. -/
def effTK (s : State) (p : Nat) (w : Word) : State :=
  match wbits w 3 0 with
  | 1 => linkDown s p
  | 2 => linkLeave s p stIDLE
  | 3 =>
    let s1 := setLinkSt (setLink s p { pass := (link s p).pass }) p stTEST
    trainLanes s1 p 15 (ownField (link s1 p) true none)
  | 4 =>
    let x := link s p
    setLink s p { x with retr := x.retr ||| x.park, park := 0
                         lanes := (lanesOf x.park).foldl (fun t k => tset t k { tget t k {} with tries := 0 } {}) x.lanes }
  | _ => s

/-- What the computed registers of a trunk port's page read. -/
def viewTK (s : State) (p off : Nat) : Option Nat :=
  let x := link s p
  if off = 0x48 then some (pack [(TK.LSTAT_RXACT p, x.rxact), (TK.LSTAT_TXACT p, x.txact), (TK.LSTAT_RETR p, x.retr),
      (TK.LSTAT_PARK p, x.park), (TK.LSTAT_PCRX p, x.pcrx), (TK.LSTAT_PCTX p, x.pctx), (TK.LSTAT_QUIET p, x.quiet.toNat),
      (TK.LSTAT_FBTX p, x.fbtx.toNat), (TK.LSTAT_FBRX p, x.fbrx.toNat)])
  else if off = 0x4C then some (pack [(TK.ADAPTQ_SWEN p, get s (TK.ADAPTQ_SWEN p)), (TK.ADAPTQ_QUAL p, x.qual)])
  else if off = 0x5C then
    let k := get s (TK.LSEL_LANE p)
    let n := laneAt x k
    some (pack [(TK.TAPS_CM1 p k, ofSigned 8 n.cm1), (TK.TAPS_C0 p k, ofSigned 8 n.c0), (TK.TAPS_CP1 p k, ofSigned 8 n.cp1)])
  else if off = 0x64 then some (pack [(TK.MAXF_OWN p, ownMax p), (TK.MAXF_NEG p, negMax s p)])
  else if off = 0x8C then some (pack [(TK.CSNS_TXN p, x.txn), (TK.CSNS_RXC p, x.rxc.getD 0)])
  else if off = 0x90 then some x.replay.length
  else none

end Sys2Proof.Machine
end

