-- ==== Sys2Proof/Machine/Dom.lean ====
section
/-! DEFINITION. Domains and rings (R302–R325): the authority record, beacons and hops, transport messages, trunk time, distributed
tables and stops, egress, credit and shares, islands, received ZLP frames, and page DOM. -/

namespace Sys2Proof.Machine

/-- A trunk port in range that carries data; the messages of R310 arrive on no other. -/
def onPort (p : Nat) (s : State) (f : State) : Host.Outcome State Fault Refusal :=
  if 2 ≤ p then .fault .noSuchUnit else if linkRuns s p then .next f else .next s

/-- What DOM does with an event of its own: nothing while it is OFF. -/
def domUp (s : State) (f : State) : State := if pstate s pDOM = stOFF then s else f

/-- This hub's position, unit and topology generation. -/
def ownPos (s : State) : Nat := get s DOM.DPOS_POS
def ownUnit (s : State) : Nat := get s DOM.DPOS_UNIT
def topog (s : State) : Nat := get s DOM.TOPOG_G

/-! ### Headship (R60, R304–R306) -/

/-- Whether the stored record makes this unit the head (R304, R306). -/
def recordHead (s : State) : Bool :=
  s.dom.recPos = some (ownPos s) && ownPos s != 0 && (role s = rSINGLE || role s = rPAIRING || role s = rACTIVE)

/-- SSTAT.AUTH as R60 gives it, kept in DROLE.AUTH; an island member stays one until it rejoins. -/
def authNow (s : State) (island : Bool) : Nat :=
  if ownPos s = 0 then 0 else if recordHead s then 1 else if island then 3 else 2

/-- Bring AUTH up to date; a hub that is no island member keeps no time for one. -/
def refreshAuth (s : State) : State :=
  let a := authNow s (get s DOM.DROLE_AUTH = 3)
  let s1 := put s DOM.DROLE_AUTH a
  if a = 3 then s1
  else refreshSide { putB s1 DOM.DROLE_KEEP false with dom := { s1.dom with keeperPos := none, keepHops := [], best := none, bestAt := 0 } }

/-- The head's position becomes known (R307, R324). -/
def setHead (s : State) (pos : Nat) : State :=
  if get s DOM.DROLE_HPOS = pos then s else raise (put s DOM.DROLE_HPOS pos) pDOM 8

/-- Whether a record passes the checks of R305 that concern the stored one. -/
def recordOk (s : State) (good : Bool) (did agen : Nat) : Bool :=
  good && (get s DOM.DID_ID = 0 || get s DOM.DID_ID = did) && (s.dom.recPos = none || newerBy 32 agen (get s DOM.AGEN_GEN))

/-- Whether a verified record of the stored generation names another position (R306). -/
def recordConf (s : State) (good : Bool) (did agen pos : Nat) : Bool :=
  good && get s DOM.DID_ID = did && get s DOM.AGEN_GEN = agen && (match s.dom.recPos with
    | some p => p != pos
    | none => false)

/-- A record is stored: a hub that was head and is not named any more resigns and abandons what it has committed (R306). -/
def takeRecord (s : State) (did agen pos : Nat) (sig : List Word) : State :=
  let was := isHead s
  let s1 := puts { s with dom := { s.dom with recPos := some pos, recSig := exactly 24 sig } } [(DOM.DID_ID, did), (DOM.AGEN_GEN, agen)]
  let s2 := refreshAuth (setHead s1 pos)
  let s3 := if was ∧ !isHead s2 then checkDrain (dropShadow (raise s2 pDOM 14)) else s2
  reselect s3

/-- A record that arrives, or is staged, is taken if it passes, and a conflict is raised. -/
def offerRecord (s : State) (rec : RecSig) (did agen pos : Nat) : State :=
  if recordOk s rec.good did agen then takeRecord s did agen pos rec.sig
  else if recordConf s rec.good did agen pos then raise s pDOM 13
  else s

/-- The staged authority record. -/
def stagedRec (s : State) : List Word := (List.range 40).map fun k => wd (get s (DOM.ASTG k))

/-- The fields of a staged record: domain ID, generation, head position. -/
def recFld (s : State) : Nat × Nat × Nat := (get s (DOM.ASTG 1), get s (DOM.ASTG 2), get s (DOM.ASTG 3) % 256)

/-- An accepted INSTALL (R305): stored, and sent out on both trunk ports as a distribution frame (DKIND 3, R362). -/
def installRec (s : State) (good : Bool) : State :=
  let r := recFld s
  let s1 := offerRecord s ⟨good, (stagedRec s).drop 16⟩ r.1 r.2.1 r.2.2
  let fr := recFrame s (stagedRec s)
  sendFrame (sendFrame s1 0 1 fr) 1 1 fr

/-! ### What waits on a port (R14, R16, R306, R314, R317, R318) -/

/-- The egress port (R314): none where the mode's port, or no port, hears a collector. -/
def egressPort (s : State) : Option Nat :=
  let e := get s DOM.CPATH_CHE
  let w := get s DOM.CPATH_CHW
  match get s DOM.EGR_MODE with
  | 1 => if e = 255 then none else some 0
  | 2 => if w = 255 then none else some 1
  | _ => if e = 255 ∧ w = 255 then none else if w < e then some 1 else some 0

/-- Whether the unit's role lets it send blocks (R331, R343, R346). -/
def roleSends (s : State) : Bool := role s = rSINGLE || role s = rPAIRING || role s = rACTIVE || role s = rTAKEOVER

/-- The first unsent block of a context. -/
def firstUnsent (s : State) (c : Nat) : Option RBlk := (unacked s c).find? fun b => !b.sent

/-- The older of two blocks by first-slot time; of two that begin at once the first, which is the lower context's (DESIGN CHOICE, log entry
123: R16 does not say). -/
def older (a : Option RBlk) (b : Option RBlk) : Option RBlk :=
  match a, b with
  | some x, some y => if y.t < x.t then b else a
  | none, _ => b
  | _, none => a

/-- The next block to send: a requested one, or of the contexts' first unsent blocks the oldest; with whether it was requested. -/
def nextBlock (s : State) : Option (RBlk × Bool) :=
  match s.cnv.resend.findSome? fun r => s.cnv.blocks.find? fun b => b.ctx = r.1 && b.seq = r.2 && !b.gone with
  | some b => some (b, true)
  | none => ((List.range 64).foldl (fun a c => older a (firstUnsent s c)) none).map fun b => (b, false)

/-- Whether own blocks wait for a port. -/
def ownWaits (s : State) (l : Nat) : Bool := roleSends s && cnvUp s && egressPort s = some l && (nextBlock s).isSome

/-- Weight of passthrough against own blocks on a port: SRCS of the upstream neighbour, at least 1 (R318). -/
def passWeight (s : State) (l : Nat) : Nat := max 1 (if l = 0 then get s DOM.SRCS_SW else get s DOM.SRCS_SE)

/-- Free units of a port's passthrough buffer: granted again, and told at once from 16 on (R317). -/
def freeUnits (s : State) (p n : Nat) : State :=
  let x := link s p
  let s1 := setLink s p { x with freed := x.freed + n, grant := (x.grant + n) % 65536 }
  if 16 ≤ x.freed + n then sendCredit s1 p else s1

/-- Send passthrough frames that wait to leave on a port, while credit covers them and the share of own blocks allows. -/
def drainPass (l : Nat) : Nat → State → State
  | 0, s => s
  | f + 1, s =>
    let x := link s l
    match x.pass with
    | [] => if x.deficit = 0 then s else setLink s l { x with deficit := 0 }
    | w :: t =>
      if mayStart s l w.2.length ∧ mayCross s l w.1 w.2 ∧ (!ownWaits s l ∨ 0 < x.deficit) then
        let own := ownWaits s l
        let s1 := startFrame (setLink s l { x with pass := t, deficit := if own then x.deficit - w.2.length else 0 }) l w.1 w.2
        drainPass l f (freeUnits (bumpMod s1 DOM.NFWD_N) (1 - l) (unitsOf w.2.length))
      else s

/-- Passthrough frames of a port, as far as they go. -/
def passAll (s : State) (l : Nat) : State := drainPass l ((link s l).pass.length + 1) s

/-- What waits on a port goes: own frames, then those that pass. -/
def sendWaiting (s : State) (p : Nat) : State := passAll (drainOwn (link s p).own.length s p) p

/-- AUTHORITY_FRAME (R305, R306): a distribution frame with an authority record; its words are forwarded as ZLP_FRAME says. After it table
and stop frames may cross the port. -/
def execAuthorityFrame (p did agen pos : Nat) (rec : RecSig) (s : State) : Host.Outcome State Fault Refusal :=
  onPort p s (domUp s (sendWaiting (meet (offerRecord s rec did agen pos) p) p))

/-! ### Hops (R307, R308, R314) -/

/-- The beats within HBTO that may still hold the lowest count, after one of `h` hops at time `t`. -/
def addBeat (lim t h : Nat) (l : List (Nat × Nat)) : List (Nat × Nat) :=
  (l.filter fun e => decide (t ≤ e.1 + lim) && decide (e.2 < h)) ++ [(t, h)]

/-- Record a beat of kind and port `k` and answer the lowest count within HBTO. -/
def beat (s : State) (k h : Nat) : Nat × State :=
  let l := addBeat (get s DOM.HBTO_MS * 1000000) (nowNs s) h (tget s.dom.beats k [])
  ((l.head?.map (·.2)).getD h, { s with dom := { s.dom with beats := tset s.dom.beats k l [] } })

/-- Nothing was heard within HBTO. -/
def unbeat (s : State) (k : Nat) : State := { s with dom := { s.dom with beats := tset s.dom.beats k [] [] } }

/-- The head and collector hop counts of a port. -/
def hopFld (p : Nat) : Fld := if p = 0 then DOM.HPATH_HOPE else DOM.HPATH_HOPW
def collFld (p : Nat) : Fld := if p = 0 then DOM.CPATH_CHE else DOM.CPATH_CHW

/-- The lower head hop count. -/
def headHops (s : State) : Nat := min (get s DOM.HPATH_HOPE) (get s DOM.HPATH_HOPW)

/-- A new topology generation is adopted and egress rewinds (R309). -/
def adoptTopo (s : State) (g : Nat) : State := if newerBy 8 g (topog s) then rewind (put s DOM.TOPOG_G g) else s

/-- BEACON (R307): one not older than the stored AGEN is recorded, and forwarded with HOPS incremented where it is the first copy of its
TOPOG on that port; the head ends its own. The part beyond the port then holds no older record, so table and stop frames may cross (R306). -/
def execBeacon (p hpos agen hops g : Nat) (s : State) : Host.Outcome State Fault Refusal :=
  onPort p s (domUp s (
    let stored := get s DOM.AGEN_GEN % 65536
    if s.dom.recPos.isSome && agen % 65536 != stored && !newerBy 16 agen stored then s
    else
      let s0 := adoptTopo s g
      let s1 := setHead (sendWaiting (meet { s0 with dom := { s0.dom with beaconGen := some (agen % 65536) } } p) p) hpos
      let b := beat s1 p hops
      let s2 := refreshSide (put b.2 (hopFld p) b.1)
      let s3 := if get s2 DOM.DROLE_AUTH = 3 then s2 else { s2 with dom := { s2.dom with prehops := headHops s2 } }
      if (isHead s ∧ hpos = ownPos s) ∨ tget s.dom.topoFwd p none = some g ∨ 255 ≤ hops then s3
      else
        let s4 := { s3 with dom := { s3.dom with topoFwd := tset s3.dom.topoFwd p (some g) none } }
        sendMsg s4 (1 - p) 6 (hpos * 2 ^ 36 + agen % 65536 * 2 ^ 20 + (hops + 1) * 2 ^ 12 + g * 2 ^ 4)))

/-- BEACON_SEND (R307): the head's beacon on both trunk ports. Its HOPS is 1, so that hub k of a chain with the head at position 1 sees
k − 1 (the example of R323: DEDUCED). -/
def execBeaconSend (s : State) : Host.Outcome State Fault Refusal :=
  .next (domUp s (if isHead s then
    sendBoth s 6 (ownPos s * 2 ^ 36 + get s DOM.AGEN_GEN % 65536 * 2 ^ 20 + 2 ^ 12 + topog s * 2 ^ 4) else s))

/-- COLL (R308): the collector hop count of a port, one more than the message's HOPS (the collector sends 0 and its neighbour is one hop
away: the example of R323, DEDUCED), and relay; at the collector's own link a change of relay changes the topology (R309). -/
def execColl (p hops : Nat) (relay : Bool) (s : State) : Host.Outcome State Fault Refusal :=
  onPort p s (domUp s (
    let b := beat s (2 + p) (min 254 (hops + 1))
    let s1 := put b.2 (collFld p) b.1
    let s2 := putB s1 DOM.CPATH_RLY relay
    let s3 := if hops = 0 ∧ relay ≠ flag s DOM.CPATH_RLY then topoChange s2 p 3 else s2
    if 255 ≤ hops then s3 else sendMsg s3 (1 - p) 9 ((hops + 1) * 2 ^ 36 + relay.toNat * 2 ^ 35)))

/-- HBTO_EXPIRY (R307, R314): no BEACON, or no COLL, on one port for HBTO. -/
def execHbtoExpiry (p : Nat) (coll : Bool) (s : State) : Host.Outcome State Fault Refusal :=
  if 2 ≤ p then .fault .noSuchUnit
  else .next (domUp s (
    if coll then put (unbeat s (2 + p)) (collFld p) 255
    else refreshSide (put (sendWaiting (meet (unbeat s p) p) p) (hopFld p) 255)))

/-- TOPO (R309): a new generation is adopted, forwarded once, and egress rewinds. -/
def execTopo (p g pos cause : Nat) (s : State) : Host.Outcome State Fault Refusal :=
  onPort p s (domUp s (if newerBy 8 g (topog s) then sendMsg (adoptTopo s g) (1 - p) 11 (topoBody g pos cause) else s))

/-! ### Trunk time (R311) -/

/-- Whether an island hub with another keeper hears on its time-facing port that the time root is the keeper no more (R310, R323 step 3): the
keeper's neighbour had `HOPS` of TDIST and TKEEP alike (DESIGN CHOICE, log entry 127). -/
def rootMoved (s : State) (p hops : Nat) : Bool :=
  get s DOM.DROLE_AUTH = 3 && s.dom.keeperPos.isSome && !isKeeper s && hearsHead s && get s DOM.HPATH_TSIDE = p &&
    hops != tget s.dom.keepHops p 255

/-- TDIST (R311): O_up of a port; on the time-facing port it gives TKOFS = O_up − LOFS, except on the head, and on a
keeper that hears no head (R266). -/
def execTdist (p : Nat) (oup : Int) (hops : Nat) (s : State) : Host.Outcome State Fault Refusal :=
  onPort p s (domUp s (
    let s0 := { s with dom := { s.dom with oup := tset s.dom.oup p (some (oup, s.cyc)) none } }
    let s1 := if rootMoved s p hops then refreshSide { s0 with dom := { s0.dom with keeperPos := none, keepHops := [] } } else s0
    if get s1 DOM.HPATH_TSIDE = p ∧ !isHead s ∧ (!isKeeper s ∨ hearsHead s) ∧ lkpRuns s then setTkofs s1 (oup - toSigned 32 (get s (TK.LOFS_OFS p)))
    else s1))

/-- The hops from this hub to the time root: 0 at it, by TKEEP in an island with a keeper, otherwise by beacons (R310). -/
def rootHops (s : State) : Nat :=
  if isHead s || isKeeper s then 0
  else if get s DOM.DROLE_AUTH = 3 ∧ s.dom.keeperPos.isSome then min 255 (min (tget s.dom.keepHops 0 255) (tget s.dom.keepHops 1 255) + 1)
  else headHops s

/-- TDIST_SEND (R311): the head and a keeper send O_up = 0, every other hub its TKOFS. -/
def execTdistSend (p : Nat) (s : State) : Host.Outcome State Fault Refusal :=
  onPort p s (domUp s (
    sendMsg s p 7 ((if isHead s || isKeeper s then 0 else get s TSU.TKOFS_OFS) * 2 ^ 12 + rootHops s * 2 ^ 4)))

/-! ### Acknowledgements and resends (R243, R310, R316) -/

/-- The full number with the given low 28 bits that lies nearest to the context's newest block (R310). -/
def fullSeq (s : State) (c low : Nat) : Nat :=
  let n := (ctx s c).newest.getD 0
  let d := (low % 2 ^ 28 + 2 ^ 28 - n % 2 ^ 28) % 2 ^ 28
  (if d < 2 ^ 27 then n + d else n + d + 2 ^ 32 - 2 ^ 28) % 2 ^ 32

/-- The fields of ACK and RESEND. -/
def ackBody (pos unit c low : Nat) : Nat := pos * 2 ^ 36 + unit * 2 ^ 34 + c * 2 ^ 28 + low % 2 ^ 28

/-- A message to a block's sender is consumed where it names this unit, and forwarded otherwise. -/
def addressed (s : State) (pos unit : Nat) : Bool := pos = ownPos s && unit = ownUnit s

/-- ACK (R243, R310). -/
def execAck (p pos unit c low : Nat) (s : State) : Host.Outcome State Fault Refusal :=
  if 64 ≤ c then .fault .noSuchUnit
  else onPort p s (
    if addressed s pos unit then ackCtx s c (fullSeq s c low) else sendMsg s (1 - p) 3 (ackBody pos unit c low))

/-- RESEND (R316): a block that is still retained is sent again at the next opportunity; otherwise the request is counted. -/
def execResend (p pos unit c low : Nat) (s : State) : Host.Outcome State Fault Refusal :=
  if 64 ≤ c then .fault .noSuchUnit
  else onPort p s (
    if addressed s pos unit then
      let q := fullSeq s c low
      if s.cnv.blocks.any fun b => b.ctx = c && b.seq = q && !b.gone then
        { s with cnv := { s.cnv with resend := s.cnv.resend ++ [(c, q)] } }
      else bumpSat s DOM.NRSI_N
    else sendMsg s (1 - p) 4 (ackBody pos unit c low))

/-! ### Egress (R14, R16, R314–R318) -/

/-- Mark a block sent. -/
def markSent (b : RBlk) (l : List RBlk) : List RBlk := l.map fun x => if x.ctx = b.ctx ∧ x.seq = b.seq ∧ x.pieces = b.pieces then { x with sent := true } else x

/-- Send one own block on its port. -/
def sendBlock (s : State) (l : Nat) (b : RBlk) (asked : Bool) : State :=
  let ws := blkWords s b
  let x := link s l
  let s1 := setLink s l { x with deficit := if x.pass.isEmpty then 0 else x.deficit + ws.length * passWeight s l }
  let s2 := { s1 with cnv := { s1.cnv with blocks := markSent b s1.cnv.blocks, resend := s1.cnv.resend.filter fun r => r != (b.ctx, b.seq) } }
  let s3 := if asked then bumpMod s2 DOM.NRSN_N else s2
  startOwn (emit s3 (.block l b.ctx b.seq ws)) l 0 ws

/-- EGRESS_SEND (R16, R251, R314–R318): the next retained block goes out on the egress port, where credit covers it; passthrough frames
take their share first. -/
def execEgressSend (mem : MemRead) (s : State) : Host.Outcome State Fault Refusal :=
  match egressPort s with
  | none => .next s
  | some l =>
    let s1 := if 0 < (link s l).deficit then passAll s l else s
    if !roleSends s ∨ !cnvUp s then .next s1
    else match nextBlock s1 with
      | none => .next s1
      | some (b, asked) =>
        if mayStart s1 l b.len then
          .next (passAll (sendBlock (memFound s1 mem) l b asked) l)
        else .next s1

/-- CREDIT (R317, R319): credit and sources of a port; frames that waited go. -/
def execCredit (p cred srcs : Nat) (s : State) : Host.Outcome State Fault Refusal :=
  onPort p s (
    sendWaiting (put (setLink s p { link s p with cred := cred % 65536 }) (if p = 0 then DOM.SRCS_SE else DOM.SRCS_SW) srcs) p)

/-- CREDIT_SEND (R317). -/
def execCreditSend (p : Nat) (s : State) : Host.Outcome State Fault Refusal := onPort p s (sendCredit s p)

/-! ### Received frames (R288, R290, R312, R314, R362) -/

/-- A frame goes on to the other port. -/
def passOn (s : State) (p fk : Nat) (ws : List Word) : State :=
  let o := 1 - p
  passAll (setLink s o { link s o with pass := (link s o).pass ++ [(fk, ws)] }) o

/-- Whether a management frame is addressed to this unit alone (R362). -/
def toMe (s : State) (m0 : Word) : Bool :=
  let unit := wbits m0 19 18
  wbits m0 27 20 = ownPos s && (unit = ownUnit s || (unit = 3 && !(role s = rSTANDBY || role s = rYIELD || role s = rISOLATED)))

/-- What makes two distribution frames the same: M0–M4. -/
def frameId (ws : List Word) : Nat := valOf (ws.take 5)

/-- Whether a broadcast is a table or stop frame of an authority generation older than the stored one: its head holds an older record and is
to resign, and the frame goes no further (R306; DESIGN CHOICE, log entry 127). -/
def outdated (s : State) (ws : List Word) : Bool :=
  wbits (ws.getD 1 0#32) 31 16 != 3 && s.dom.recPos.isSome && newerBy 32 (get s DOM.AGEN_GEN) (ws.getD 5 0#32).toNat

/-- ZLP_FRAME (R288, R290, R314, R362): a frame of wrong length or kind is dropped and counted; a block frame and a management frame for
another unit go on to the other port; a broadcast goes on once per port. What a frame for this hub says comes as commands of its own. -/
def execZlpFrame (l fk flen : Nat) (ws : List Word) (s : State) : Host.Outcome State Fault Refusal :=
  withLink l s (
    if !linkRuns s l then s
    else if flen = 0 ∨ negMax s l < flen ∨ (if l = 2 then decide (fk ≠ 2) else decide (2 ≤ fk)) then raiseL (bumpSatL s l TK.OVLEN_N) l 14
    else if l = 2 then s
    else
      let m0 := ws.getD 0 0#32
      if fk = 1 ∧ wbits m0 27 20 = 255 then
        let k := 1 - l
        if s.dom.distSeen.contains (k, frameId ws) || outdated s ws then freeUnits s l (unitsOf flen)
        else passOn { s with dom := { s.dom with distSeen := s.dom.distSeen ++ [(k, frameId ws)] } } l fk ws
      else if fk = 1 ∧ toMe s m0 then freeUnits s l (unitsOf flen)
      else passOn s l fk ws)

/-! ### Distributed tables and stops (R64, R312, R313) -/

/-- Send a REPORT towards the head (R310, R313). -/
def sendReport (s : State) (reason : Nat) : State :=
  sendMsg s (get s DOM.HPATH_TSIDE) 10
    (ownPos s * 2 ^ 36 + ownUnit s * 2 ^ 34 + reason * 2 ^ 30 + get s SCH.EPOCHL_EP % 2 ^ 30)

/-- REPORT (R310, R313): recorded on the head, and passed towards it elsewhere. -/
def execReport (p pos unit reason epoch : Nat) (s : State) : Host.Outcome State Fault Refusal :=
  onPort p s (domUp s (
    if isHead s then
      let s1 := puts s [(DOM.RPT_POS, pos), (DOM.RPT_UNIT, unit), (DOM.RPT_REASON, reason), (DOM.RPTEP_EP, epoch)]
      let s2 := raise s1 pDOM 16
      if reason = 3 then raise s2 pDOM 12 else s2
    else if get s DOM.HPATH_TSIDE = p then s
    else sendMsg s (1 - p) 10 (pos * 2 ^ 36 + unit * 2 ^ 34 + reason * 2 ^ 30 + epoch % 2 ^ 30)))

/-- A table frame's entries in the shadow; the other entries are empty. -/
def loadTable (s : State) (f : TableFrame) : State :=
  let s1 := puts s [(SCH.EPOCHS_EP, f.epoch), (SCH.BASESH_SEC, f.base / 2 ^ 32), (SCH.BASESL_SEC, f.base)]
  f.entries.foldl (fun s e => (List.range 6).foldl (fun s k =>
    put s (SCH.ENT k (shadowT s * 256 + e.1 % 256)) (e.2.getD k 0#32).toNat) s) (effSCH s1 (wd 4))

/-- A distributed frame that fails its authentication is dropped (R362). -/
def distFail (s : State) : State := raise (bumpSat s SEC.DSFAIL_N) pSEC 12

/-- The member stays behind (R64, R313). -/
def behind (s : State) (reason : Nat) : State := sendReport (raise (putB s SCH.SSTAT_EPBHND true) pSCH 9) reason

/-- Whether a table's EPOCH point or BASE second has passed (R64). -/
def tooLate (s : State) : Bool :=
  decide (shadowBase s ≤ s.time.sec) || (tableEnts s (shadowT s)).any fun x =>
    x.2.act = actEPOCH && x.2.axis = axTIME && decide (tickTime (shadowBase s * tickHz + x.2.start) ≤ now16 s)

/-- A member takes a distributed table (R64): one that is late or fails leaves it behind; otherwise it is committed in
place of a shadow that still waits. Of a table that is late or fails nothing is kept: the shadow's entries, and its commitment, stay as they
were (DESIGN CHOICE, log entry 34: R64 keeps the live table and says nothing of the shadow). -/
def takeTable (s : State) (f : TableFrame) : State :=
  let s1 := loadTable (dropShadow s) f
  let st := pstate s1 pSCH
  if f.late ∨ tooLate s1 then behind s 2
  else if !(commitErrs s1 false).isEmpty ∨ commitState s1 ∨ !(st = stIDLE || st = stRUN) ∨ (f.entries.any fun e => 256 ≤ e.1) then behind s 1
  else commitShadow s1

/-- Whether a distributed frame is the head's (R312): the stored AGEN, from the head position. -/
def fromHead (s : State) (agen pos : Nat) : Bool := agen = get s DOM.AGEN_GEN && s.dom.recPos = some pos

/-- Whether a frame's endorsement names the head position's unit under this hub's anchor (R362): the position the stored record names. -/
def ofHead (s : State) (good : Bool) (pos : Nat) : Bool := good && s.dom.recPos = some pos

/-- TABLE_FRAME (R64, R312, R362): one that fails its authentication, or that another unit than the head position's has sent, is dropped and
counted. -/
def execTableFrame (f : TableFrame) (s : State) : Host.Outcome State Fault Refusal :=
  .next (domUp s (
    if !ofHead s f.good f.srcPos then distFail s
    else if !fromHead s f.agen f.srcPos ∨ !(get s DOM.DROLE_AUTH = 2 || get s DOM.DROLE_AUTH = 3) then s
    else
      let s1 := { s with dom := { s.dom with headEpoch := some f.epoch } }
      if get s DOM.DROLE_AUTH = 2 then takeTable s1 f else s1))

/-- STOP_FRAME (R62, R312, R362). -/
def execStopFrame (f : StopFrame) (s : State) : Host.Outcome State Fault Refusal :=
  .next (domUp s (
    if !ofHead s f.good f.srcPos then distFail s
    else if fromHead s f.agen f.srcPos ∧ get s DOM.DROLE_AUTH = 2 ∧ f.epoch = get s SCH.EPOCHL_EP ∧ pstate s pSCH = stRUN then setStop s f.stop
    else s))

/-! ### Islands (R321–R323) -/

/-- ISLAND (R321): no BEACON of the stored AGEN on either port for HBTO. What the head commits from now on is not known here (R313). -/
def execIsland (s : State) : Host.Outcome State Fault Refusal :=
  .next (domUp s (
    if get s DOM.DROLE_AUTH = 2 then
      let s1 := puts (unbeat (unbeat s 0) 1) [(DOM.DROLE_AUTH, 3), (DOM.HPATH_HOPE, 255), (DOM.HPATH_HOPW, 255)]
      refreshSide (raise { s1 with dom := { s1.dom with best := none, bestAt := 0, keeperPos := none, keepHops := [], headEpoch := none } } pDOM 9)
    else s))

/-- Whether candidate `a` outranks `b` (R322): PREHOPS, then POS. -/
def outranks (a b : Nat × Nat) : Bool := decide (a.1 < b.1) || (a.1 = b.1 && decide (a.2 < b.2))

/-- This hub as a candidate. -/
def ownCand (s : State) : Nat × Nat := (s.dom.prehops, ownPos s)

/-- The fields of CAND. -/
def candBody (s : State) (c : Nat × Nat) : Nat := c.2 * 2 ^ 36 + c.1 * 2 ^ 28 + topog s * 2 ^ 20

/-- The best candidate heard within the last 1 ms, or 245,760 cycles (R322). -/
def bestCand (s : State) : Option (Nat × Nat) := if s.cyc < s.dom.bestAt + 245760 then s.dom.best else none

/-- Whether this hub has heard a candidate that outranks it. -/
def beaten (s : State) : Bool := match bestCand s with
  | none => false
  | some b => outranks b (ownCand s)

/-- CAND (R309, R322): only the best candidate seen, this hub itself included, is forwarded. -/
def execCand (p pos prehops g : Nat) (s0 : State) : Host.Outcome State Fault Refusal :=
  onPort p s0 (domUp s0 (
    let s := adoptTopo s0 g
    let c := (prehops, pos)
    if get s DOM.DROLE_AUTH ≠ 3 ∨ c = ownCand s then s
    else
      let lower := match bestCand s with
        | none => false
        | some b => outranks b c
      if lower then s
      else
        let s1 := { s with dom := { s.dom with best := some c, bestAt := s.cyc } }
        if outranks (ownCand s) c then s1 else sendMsg s1 (1 - p) 8 (candBody s1 c)))

/-- CAND_SEND (R322): every island hub is a candidate, the keeper too. -/
def execCandSend (s : State) : Host.Outcome State Fault Refusal :=
  .next (domUp s (if get s DOM.DROLE_AUTH = 3 then sendBoth s 8 (candBody s (ownCand s)) else s))

/-- KEEPER (R322): a candidate that has heard no better one keeps the island's time; its TSU free-runs in IDLE. -/
def execKeeper (s : State) : Host.Outcome State Fault Refusal :=
  .next (domUp s (
    if get s DOM.DROLE_AUTH = 3 ∧ !isKeeper s ∧ !beaten s then
      let s1 := raise (putB s DOM.DROLE_KEEP true) pDOM 15
      let s2 := sendBoth s1 12 (ownPos s * 2 ^ 36 + topog s * 2 ^ 28)
      let s3 := setTkofs s2 0
      refreshSide (if pstate s3 pTSU = stOFF then s3 else choose s3)
    else s))

/-- TKEEP (R309, R322): the port towards the keeper. -/
def execTkeep (p pos g hops : Nat) (s0 : State) : Host.Outcome State Fault Refusal :=
  onPort p s0 (domUp s0 (
    let s := adoptTopo s0 g
    if get s DOM.DROLE_AUTH = 3 ∧ !isKeeper s then
      let s1 := refreshSide { s with dom := { s.dom with keeperPos := some pos, keepHops := tset s.dom.keepHops p hops 255 } }
      if 255 ≤ hops then s1 else sendMsg s1 (1 - p) 12 (pos * 2 ^ 36 + g * 2 ^ 28 + (hops + 1) * 2 ^ 20)
    else s))

/-- Whether this hub's live epoch is behind the head's at its rejoin (R313): by the head's newest table frame; where none has come since the
split the head's epoch is not known here, and the answer is a free value (log entry 127). -/
def lags (s : State) : Bool × State :=
  match s.dom.headEpoch with
  | some e => (e != get s SCH.EPOCHL_EP, s)
  | none =>
    let d := draw s
    (bit (Config.freeWord d.1).toNat 0, d.2)

/-- REJOIN (R323 step 4): an island member that hears the head, is no keeper and is within RJTOL becomes a member. -/
def execRejoin (s : State) : Host.Outcome State Fault Refusal :=
  .next (domUp s (
    if get s DOM.DROLE_AUTH = 3 ∧ hearsHead s ∧ !isKeeper s ∧ (tkofs s).natAbs ≤ get s DOM.RJTOL_NS * 256 then
      let r := lags (raise (refreshAuth (put s DOM.DROLE_AUTH 2)) pDOM 10)
      if r.1 then sendReport r.2 3 else r.2
    else s))

/-! ### Page DOM (R302, R305, R324, R325) -/

/-- The reasons a word of page DOM is rejected beyond the fields' own legal sets. -/
def violDOM (s img : State) (src : Src) (good : Bool) (off : Nat) (w : Word) : List Viol :=
  let owner := srcRole s src = some .owner
  if off = 0x40 then
    let c := chg s img DOM.DPOS_POS
    viol (c && !owner) .auth off ++
      viol (c && (schActive s || (List.range 64).any fun k => decide (2 ≤ cstate s k))) .state off
  else if off = 0x58 then viol (chg s img DOM.EGR_MODE && !owner) .auth off
  else if off = 0x60 then
    match wbits w 3 0 with
    | 0 => []
    | 1 =>
      let r := recFld img
      viol (!owner) .auth off ++ viol (!recordOk s good r.1 r.2.1) .range off
    | 2 => viol (!owner) .auth off
    | _ => (if owner then [] else [(.auth, off)]) ++ [(.range, off)]
  else if 0x400 ≤ off ∧ off < 0x4A0 then viol (chg s img (DOM.ASTG ((off - 0x400) / 4)) && !owner) .auth off
  else []

/-- The effect of an accepted ACMD: INSTALL, REWIND. -/
def effDOM (s : State) (good : Bool) (w : Word) : State :=
  match wbits w 3 0 with
  | 1 => installRec s good
  | 2 => rewind s
  | _ => s

/-- What a committed burst on page DOM does beyond setting its fields: a new position changes AUTH. -/
def afterDOM (old s : State) : State := if chg old s DOM.DPOS_POS then reselect (refreshAuth s) else s

/-- Credit units of the frames that came in on a port and wait to leave. -/
def passUnits (s : State) (p : Nat) : Nat := ((link s (1 - p)).pass.map fun f => unitsOf f.2.length).sum

/-- What the computed registers of page DOM read (R302, R303, R325). -/
def viewDOM (s : State) (off : Nat) : Option Nat :=
  if off = 0x54 then some (pack [(DOM.CPATH_RLY, get s DOM.CPATH_RLY), (DOM.CPATH_CSIDE, (egressPort s).getD 0),
    (DOM.CPATH_CHW, get s DOM.CPATH_CHW), (DOM.CPATH_CHE, get s DOM.CPATH_CHE)])
  else if off = 0x64 then some (pack [(DOM.PTOCC_PW, passUnits s 1), (DOM.PTOCC_PE, passUnits s 0)])
  else if off = 0x84 then
    let c := get s DOM.CHSEL_CH
    let n := bankOfCh c
    some (pack [(DOM.CHINF_GID, ownPos s * 1024 + c), (DOM.CHINF_MODE, chMode s c), (DOM.CHINF_GAIN, get s (BNK.CHCFG_GAIN n (c % 16))),
      (DOM.CHINF_BST, bstate s n), (DOM.CHINF_LIN, (lenOf s c).toNat), (DOM.CHINF_MTR, (designated s n).toNat)])
  else none

end Sys2Proof.Machine
end

