-- ==== Sys2Proof/Machine/Twl.lean ====
section
/-! DEFINITION. TWILL twin pairing (R326–R350): roles and their transitions, the heartbeat, health and failures, takeover, summaries,
the mirrored configuration, the cutting of checkpoints, and page TWL. A received checkpoint applies bursts and stands after the
register window. -/

namespace Sys2Proof.Machine

/-! ### The heartbeat set (R339, R340) -/

/-- Whether every heartbeat quad drives. -/
def allHeartDrive (s : State) : Bool := (heartQuads s).all fun e => flag s (BNK.QSTAT_ON e.1 e.2)

/-- A bank's half-period in ns: HALFP path M output periods (R81, R142). -/
def halfPeriodNs (s : State) (n : Nat) : Nat :=
  get s (BNK.XCTL_HALFP n) * (if mwin s n then get s AXS.MPER_PER * get s (BNK.FRESP_MWN n) else periodTicks s n * 15625 / 96)

/-- T_HP in ns: the longest half-period of the heartbeat banks, 1 ms where the set is empty. -/
def thpNs (s : State) : Nat :=
  match heartQuads s with
  | [] => 1000000
  | l => (l.map fun e => halfPeriodNs s e.1).foldl max 0

/-- Whether excitation is present (R339): not absent for longer than HBGAP; an empty set counts as absent. -/
def exciteSeen (s : State) : Bool := !(heartQuads s).isEmpty && decide (s.twl.gap * 100 ≤ get s TWL.HBGAP_US * 24576)

/-- CCLK cycles of `k` × T_HP. -/
def thpCycles (s : State) (k : Nat) : Nat := (k * thpNs s * 24576 + 99999999) / 100000000

/-- The absence counted, µs, that ABST reads. -/
def absenceUs (s : State) : Nat := if exciteSeen s then 0 else min (s.twl.absent * 100 / 24576) (2 ^ 32 - 1)

/-- Whether HBGAP is too long for T_HP (R339). -/
def heartBad (s : State) : Bool := decide (3 * thpNs s ≤ get s TWL.HBGAP_US * 1000)

/-- The reason a word is rejected that would leave HBGAP too long: on TWL's registers, and on a heartbeat bank's XCTL, FRESP and
QCFG; and of a heartbeat set that would leave no quad driving beside a silent link (R340). A commit to TWL is one that
writes its block registers (DEDUCED, log entry 128). -/
def violHeart (s img : State) (page off : Nat) : List Viol :=
  viol (page = pTWL && ((off = 0x50 && chg s img TWL.HBMLO_BANKS) || (off = 0x54 && chg s img TWL.HBMHI_BANKS)) && heartbeatStop s img [])
    .state off ++
  match bankOfPage page with
  | some n => viol ((off = 0x44 || off = 0x48 || (decide (0x60 ≤ off) && decide (off < 0x70))) && heartbeat img n && heartBad img) .range off
  | none => viol (page = pTWL && decide (0x40 ≤ off) && heartBad img) .range off

/-! ### The twin link (R328–R330) -/

/-- Whether the two units are paired and the link carries frames. -/
def twinUp (s : State) : Bool := s.twl.paired && !twinSilent s && linkRuns s 2

/-- Whether the unit takes part in a pair at all. -/
def twin (s : State) : Bool := role s != rSINGLE && pstate s pTWL != stOFF

/-- What an event of the pair does; a single unit has none. -/
def onTwin (s : State) (f : State) : Host.Outcome State Fault Refusal := .next (if twin s then f else s)

/-- A message of the twin link's transport stream; it arrives only while the link runs. -/
def onTwinMsg (s : State) (f : State) : Host.Outcome State Fault Refusal := .next (if twin s ∧ linkRuns s 2 then f else s)

/-- Send ROLE (R329). -/
def sendRole (s : State) : State := sendMsg s 2 7 (role s * 2 ^ 40 + s.twl.strap * 2 ^ 38 + get s TWL.CGEN_N * 2 ^ 6)

/-- Send FAIL (R341). -/
def sendFail (s : State) (cls : Nat) : State := sendMsg s 2 6 (cls * 2 ^ 40)

/-! ### Failures and health (R335, R341) -/

/-- Whether the cause of an own-failure class is present. -/
def failClass (s : State) (cls : Nat) : Bool :=
  match cls with
  | 1 => pstate s pSCH = stFAULT
  | 2 => pstate s pFLT = stFAULT
  | 3 => pstate s pLIN = stFAULT
  | 4 => pstate s pSTM = stFAULT
  | 5 => pstate s pQUE = stFAULT
  | 6 => pstate s pCNV = stFAULT
  | 7 => pstate s pEXC = stFAULT
  | 8 => s.pwr.lock
  | _ => false

/-- The lowest own-failure class present. -/
def ownFail (s : State) : Option Nat := [1, 2, 3, 4, 5, 6, 7, 8].find? (failClass s)

/-- The health word. -/
def healthWord (s : State) : Nat :=
  role s * 2 ^ 28 + (!twinSilent s).toNat * 2 ^ 27 + (exciteSeen s).toNat * 2 ^ 26 + get s TWL.TROLE_DIS * 2 ^ 25 + get s TWL.TROLE_CFGB * 2 ^ 24 +
    get s TWL.TROLE_CFGREJ * 2 ^ 23 + (ownFail s).isSome.toNat * 2 ^ 22 + get s MTR.MSTAT_TWMIS * 2 ^ 21 +
    (decide (95 ≤ fillPct s)).toNat * 2 ^ 20 + get s TWL.CGEN_N % 65536

/-- Drop the bursts that the partner reports applied (R336). -/
def reported (s : State) (gen : Nat) : State :=
  { s with twl := { s.twl with backlog := s.twl.backlog.filter fun b => newerBy 32 b.1 gen } }

/-- HEALTH (R335). -/
def execHealth (w : Word) (s : State) : Host.Outcome State Fault Refusal :=
  let g := get s TWL.CGEN_N
  let d := (w.toNat + 65536 - g % 65536) % 65536
  onTwinMsg s (reported (put s TWL.PHWORD w.toNat) ((if d < 32768 then g + d else g + d + 2 ^ 32 - 65536) % 2 ^ 32))

/-- HEALTH_SEND (R335). -/
def execHealthSend (s : State) : Host.Outcome State Fault Refusal :=
  onTwin s (if twinUp s then sendMsg s 2 3 (healthWord s * 2 ^ 12) else s)

/-! ### Mirrored configuration and checkpoints (R333, R336) -/

/-- Whether a word of the window belongs to the mirrored configuration: PCTL and the block registers of BNK, EXC, AXS, FLT, OPT and LIN;
STM but CCMD; AFEMD; CDC's neighbour map with its selector; and TWL's configuration. -/
def mirrored (page off : Nat) : Bool :=
  if (bankOfPage page).isSome ∨ page = pEXC ∨ page = pAXS ∨ page = pFLT ∨ page = pOPT ∨ page = pLIN then off = 8 || decide (0x40 ≤ off)
  else if page = pSTM then (off = 8 || decide (0x40 ≤ off)) && off != 0x4C
  else if page = pPWR then off = 0x4C
  else if page = pCDC then off = 0xC4 || decide (0x400 ≤ off)
  else if page = pTWL then decide (0x48 ≤ off) && decide (off ≤ 0x58)
  else false

/-- Words of a burst record. -/
def burstSize (b : CkBurst) : Nat := b.ws.length + 1

/-- The bursts of frames: as many as fit the first number of words, then 4,083 a frame. -/
def splitBursts : Nat → List CkBurst → List CkBurst → List (List CkBurst)
  | _, acc, [] => [acc]
  | room, acc, b :: t => if burstSize b ≤ room then splitBursts (room - burstSize b) (acc ++ [b]) t else acc :: splitBursts (4083 - burstSize b) [b] t

/-- The words of a burst record. -/
def burstWords (b : CkBurst) : List Word := wd (b.page * 2 ^ 20 + b.off * 2 ^ 8 + (b.ws.length - 1)) :: b.ws

/-- The context entries of a checkpoint (R336). -/
def ckContexts (s : State) : List (List Word) :=
  ((List.range 64).filter fun c => cstate s c != stOFF).map fun c =>
    [wd (cstate s c * 256 + c), wd (get s (STM.CSEQ_SEQ c)), wd ((ctx s c).acked.getD 0)] ++ timeWords (ctx s c).ackT false false

/-- One frame of a checkpoint. -/
def ckFrame (s : State) (fidx nfr : Nat) (full : Bool) (ctxs : List (List Word)) (bs : List CkBurst) : List Word :=
  let dw := (bs.map burstSize).sum
  let ws := [wd (2 ^ 24 + fidx * 2 ^ 16 + nfr * 2 ^ 8 + full.toNat), wd (get s TWL.CKN_N), wd (get s SCH.EPOCHL_EP), wd (get s TWL.CGEN_N)] ++
    timeWords (now16 s) (frnNow s) (islNow s) ++ [wd (ctxs.length * 65536 + dw)] ++ ctxs.flatten ++ bs.flatMap burstWords
  ws ++ exactly 4 (Config.twinTag s.twl.key ws)

/-- The configuration words of a page's registers at an instance: those with a field software writes, without its commands. -/
def cfgWords (s : State) (page idx : Nat) (regs : List RegDef) : List CkBurst :=
  (regs.filter fun r => mirrored page r.off && r.fields.any fun f => f.ty = .rw || f.ty = .rwl || f.ty = .rwe).map fun r =>
    ⟨page, r.off, [wd (assemble s page r.off idx r.fields)]⟩

/-- The bursts of a windowed page: each instance after its selector. -/
def cfgWindow (s : State) (page selOff : Nat) (sel : Sel) (l : List (Nat × Word)) : List CkBurst :=
  l.flatMap fun e => ⟨page, selOff, [e.2]⟩ :: cfgWords s page e.1 ((blockRegs page).filter fun r => r.sel = sel)

/-- Every mirrored register as bursts (R336), page by page; on a windowed page each instance follows its selector's word, and the
selector's own value comes last. -/
def fullBursts (s : State) : List CkBurst :=
  let plain (page : Nat) : List CkBurst := cfgWords s page 0 ((blockRegs page).filter fun r => r.sel = .none)
  let at_ (page : Nat) (w : Nat) : List CkBurst := [⟨page, 8, [wd w]⟩]
  let pctl (page : Nat) : List CkBurst := at_ page (get s (hLOCK page) * 2 ^ 31 + get s (hENABLE page))
  plain pAXS ++ ((List.range 48).map fun n => 0x10 + n).flatMap plain ++ plain pEXC ++ plain pFLT ++ plain pOPT ++
    cfgWindow s pLIN 0x40 .linCh ((List.range 784).map fun c => (c, wd c)) ++ plain pLIN ++
    cfgWindow s pSTM 0x40 .stmCtx ((List.range 63).map fun c => (c + 1, wd (c + 1))) ++ plain pSTM ++
    [⟨pPWR, 0x4C, [wd (get s PWR.AFEMD_ECO)]⟩] ++
    cfgWindow s pCDC 0xC4 .nmap ((List.range 126).map fun k => (k + 2, wd ((k + 2) / 2 + (k % 2) * 256))) ++ plain pCDC ++ plain pTWL ++
    ((List.range 48).map fun n => 0x10 + n).flatMap pctl ++ [pAXS, pEXC, pFLT, pOPT, pLIN, pSTM].flatMap pctl

/-- Words of a burst list that fill 255 frames. -/
abbrev ckLimit : Nat := 255 * 4083

/-- Cut a checkpoint (R336): one or more twin frames with every burst not reported applied, or a FULL one. Bursts are kept until they are
reported. -/
def cut (s : State) : State :=
  if !twinUp s ∨ !(role s = rACTIVE || role s = rTAKEOVER) then s
  else
    let full := s.twl.fullDue || decide (ckLimit < (s.twl.backlog.map fun b => burstSize b.2).sum)
    let bs := if full then fullBursts s else s.twl.backlog.map (·.2)
    let s1 := bumpMod s TWL.CKN_N
    let ctxs := ckContexts s1
    let fs := splitBursts (4083 - 6 * ctxs.length) [] bs
    let s2 := { s1 with twl := { s1.twl with fullDue := false, sentGen := get s TWL.CGEN_N } }
    (fs.zipIdx).foldl (fun s f => sendFrame s 2 2 (ckFrame s f.2 fs.length full (if f.2 = 0 then ctxs else []) f.1)) s2

/-- A committed burst to mirrored configuration on the active unit is one generation (R336); bursts that would fill a frame are cut at
once. -/
def mirrorBurst (s : State) (page off : Nat) (ws : List Word) : State :=
  if role s = rACTIVE ∨ role s = rTAKEOVER then
    let s1 := bumpMod s TWL.CGEN_N
    if twinUp s1 then
      let s2 := { s1 with twl := { s1.twl with backlog := s1.twl.backlog ++ [(get s1 TWL.CGEN_N, ⟨page, off, ws⟩)] } }
      let n : Nat := ((s2.twl.backlog.filter fun b => newerBy 32 b.1 s2.twl.sentGen).map fun b => burstSize b.2).sum
      if 4083 ≤ n then cut s2 else s2
    else s1
  else s

/-- Whether the live table has a CKPT entry that has not retired: its points cut in place of CKPER. -/
def ckptLive (s : State) : Bool := (liveEnts s).any fun e => e.act = actCKPT

/-- CHECKPOINT_CUT (R336): every CKPER. -/
def execCheckpointCut (s : State) : Host.Outcome State Fault Refusal := onTwin s (if ckptLive s then s else cut s)

/-! ### Roles (R327, R332, R343, R346) -/

/-- Strings light or go dark with the role (R108): a port that runs continuously lights; at a takeover (`tko`) the channel of every running
port settles (R108, R144); without drive every string is dark and the ports keep their states. -/
def roleOptics (tko : Bool) (s : State) : State :=
  forEach (List.range 16) (fun s p =>
    if !roleDrives s then cutPulse (if (oport s p).lit = 0 then s else setLit s p 0) p
    else if get s (OPTP.PST_STATE p) = stRUN then
      let s1 := if get s (OPTP.PCFG_PM p) = 1 ∧ (oport s p).lit = 0 ∧ !(oport s p).dark then setLit s p (contMask s p) else s
      if tko then restartSettle s1 (768 + p) else s1
    else s) s

/-- TWL is IDLE in SINGLE and RUN in every other role (R349). -/
def refreshTwl (s : State) : State := follow pTWL (fun s => role s != rSINGLE) s

/-- Take a role: ROLECHG, headship follows (R60) and with it the time source (R18), a takeover opens the CHK windows (R226), strings follow, shared wiring is driven or released (R327),
quads without drive turn off, and ROLE is sent. Quads begin to drive at
once, except at a takeover, where each bank's next blanking window starts them (R343). -/
def setRole (s : State) (r : Nat) : State :=
  if role s = r then s
  else
    let s1 := raise (puts s [(TWL.TROLE_ROLE, r), (TWL.TROLE_FOREIGN, 0)]) pTWL 8
    let s0 := reselect (relimit (roleOptics (r = rTAKEOVER) (refreshAuth (refreshTwl (if r = rTAKEOVER then openChkAll s1 else s1)))))
    let s2 := if roleDrives s = roleDrives s0 then s0 else shareDrive s0
    sendRole (if r = rTAKEOVER ∨ role s = rTAKEOVER ∧ r = rACTIVE then s2 else driveAll s2)

/-- A takeover is complete when every heartbeat quad drives: ACTIVE, and TKO ends (R332, R343). -/
def checkActive (s : State) : State :=
  if role s = rTAKEOVER ∧ allHeartDrive s then
    let s1 := setRole s rACTIVE
    { s1 with twl := { s1.twl with tkoT := some (now16 s) } }
  else s

/-- Unit B yields (R345). -/
def yieldRole (s : State) : State := raise (bumpSat (setRole s rYIELD) TWL.NYLD_N) pTWL 11

/-- Ask the partner for a FULL checkpoint: ROLE goes out at once. No message of R329 has a field for the request; how the partner takes it
is at `execRole` (log entry 128). -/
def askFull (s : State) : State := sendRole { s with twl := { s.twl with fullReq := true } }

/-- Whether the role stays PAIRING because MGP's region holds no image and its loader waits (R384). -/
def imageless (s : State) : Bool := get s (UPD.ILVL_LST 0) = 5

/-- What a paired unit's role becomes for a partner in role `p` (R346). -/
def pairRole (s : State) (p : Nat) : State :=
  let act : Bool := p = rACTIVE || p = rTAKEOVER
  if role s = rPAIRING ∧ imageless s then s
  else if role s = rPAIRING then
    if act then askFull (setRole s rSTANDBY)
    else if p = rPAIRING then setRole s (if s.twl.strap = 1 then rACTIVE else rSTANDBY)
    else if p = rSTANDBY ∨ p = rYIELD then setRole (sendFail s 10) rSTANDBY
    else if p = rISOLATED ∧ !exciteSeen s then setRole s rACTIVE
    else s
  else if role s = rYIELD ∧ act then askFull (setRole s rSTANDBY)
  else s

/-- On pairing an active unit sends a FULL checkpoint (R336). -/
def pairFull (s : State) : State :=
  if role s = rACTIVE ∨ role s = rTAKEOVER then cut { s with twl := { s.twl with fullDue := true } } else s

/-- The PDIG the partner reports is held, and judged against this unit's seal (R171). -/
def twinPdig (s : State) (p : List Word) : State := judgeTwin { s with twl := { s.twl with pdig := p } }

/-- Whether this unit is sealed or will be without a further check: a seal is being written, or a record waits to be loaded (R163, R170). -/
def sealHeld (s : State) : Bool :=
  pstate s pMTR = stSEALED || pstate s pMTR = stFAULT || s.mtr.record.isSome || s.mtr.op.isSome

/-- Whether a pair may operate with its seals (R4): with the partition unsealed in both units, or both KGL768-IM. -/
def sealPairOk (s : State) (code : Nat) (sealed : Bool) : Bool := (pcap s pMTR % 2 = 1 && code = 2) || (!sealHeld s && !sealed)

/-- Whether a partner meets the conditions of R330, R328, R364 and R4. -/
def pairOk (s : State) (pos unit oshr : Nat) (good : Bool) (ogen maxf code : Nat) (sealed : Bool) : Bool :=
  sealPairOk s code sealed && good && pos = ownPos s && ((s.twl.strap = 1 && unit = 2) || (s.twl.strap = 2 && unit = 1)) && oshr = get s OPT.OSHR_SHR &&
    flag s SEC.OSTAT_ENDRS && ogen = get s SEC.OGEN_GEN && decide (4095 ≤ maxf)

/-- The bytes of "GL768-SESSION". -/
def sessionInfo : List Nat := [71, 76, 55, 54, 56, 45, 83, 69, 83, 83, 73, 79, 78]

/-- The 8-word nonce drawn at `n`. -/
def nonceAt (n : Nat) : List Word := (List.range 8).map fun i => Config.freeWord (n + i)

/-- Keys and salts of a session (R22, R358): HKDF over the ECDH secret of ephemeral key `n` and the far one, salted with the requester's and
the other end's nonce: 80 bytes, requester to hub first. -/
def keysOf (n : Nat) (far nr nh : List Word) : List Word :=
  exactly 20 (Config.hkdf (Config.ecdh n far) (exactly 8 nr ++ exactly 8 nh) sessionInfo)

/-- The device-key signature over SHA-384 of words. -/
def deviceSig (ws : List Word) : List Word := exactly 24 (Config.signature 0 (exactly 12 (Config.sha384 ws)))

/-- The twin session (R330, R358): the set-up's messages leave, each unit with its endorsement in place of a role certificate, and the key is
agreed. Unit A is the requester (DESIGN CHOICE, log entry 129); it sends OPEN and CONFIRM, unit B ACCEPT. -/
def twinSession (s : State) (far : List Word) : State :=
  let nOwn := nonceAt s.fresh
  let nFar := exactly 8 (far.drop 24)
  let q := exactly 24 (Config.ephKey s.fresh) ++ nOwn
  let s1 := { s with fresh := s.fresh + 8 }
  if s.twl.strap = 1 then
    let m := q ++ s.sec.endorse
    let dig := exactly 12 (Config.sha384 (m ++ far.take (far.length - 24)))
    let s2 := emit (emit s1 (.twinSetup 0 m)) (.twinSetup 2 (exactly 24 (Config.signature 0 (dig ++ far.drop (far.length - 24)))))
    { s2 with twl := { s2.twl with key := keysOf s.fresh (exactly 24 far) nOwn nFar } }
  else
    let m := q ++ s.sec.cert ++ s.sec.endorse
    let s2 := emit s1 (.twinSetup 1 (m ++ deviceSig (far ++ m)))
    { s2 with twl := { s2.twl with key := keysOf s.fresh (exactly 24 far) nFar nOwn } }

/-- PAIRED (R330, R346): the conditions are judged; with a partner that meets them the twin session opens, and the roles follow. -/
def execPaired (pos unit oshr : Nat) (good : Bool) (ogen maxf p : Nat) (legal : PartnerSeal) (s : State) : Host.Outcome State Fault Refusal :=
  onTwinMsg s (
    if pairOk s pos unit oshr good ogen maxf legal.code legal.sealed then
      let s1 := put { s with twl := { s.twl with paired := true, pairFail := false, failRx := none, pcode := legal.code, psealed := legal.sealed } }
        TWL.TROLE_PROLE p
      pairFull (pairRole (twinPdig (twinSession s1 legal.far) legal.pdig) p)
    else failPair s)

/-- Excitation has been absent for `k` × T_HP: what the detector has counted. -/
def absentFor (s : State) (k : Nat) : State :=
  { s with twl := { s.twl with gap := max s.twl.gap (thpCycles s k), absent := max s.twl.absent (thpCycles s k) } }

/-- The quads' voltages as the detector senses them: 4 × bank + quad, and mV. -/
def senseVolts (s : State) (l : List (Nat × Nat)) : State :=
  l.foldl (fun s e => put s (BNK.QMEAS_VSNS (e.1 / 4) (e.1 % 4)) e.2) s

/-- PAIRING_TIMEOUT (R346): not paired 100 ms after power-up; by the sensed voltages excitation is present, or it has been absent for
3 × T_HP (unit A) or 6 × T_HP (unit B). -/
def execPairingTimeout (volts : List (Nat × Nat)) (s : State) : Host.Outcome State Fault Refusal :=
  onTwin s (
    if role s = rPAIRING ∧ !s.twl.paired ∧ !imageless s then
      let s1 := senseVolts s volts
      if anyPresent s1 then raise (setRole { s1 with twl := { s1.twl with gap := 0, absent := 0 } } rSTANDBY) pTWL 9
      else setRole (absentFor s1 (if s.twl.strap = 1 then 3 else 6)) rACTIVE
    else s)

/-- Whether a ROLE from the partner asks for a FULL checkpoint (R336, R346): one that says it has become STANDBY does. Whether a later one
carries a RESYNC, for which R329 gives no field, is a free value (log entry 128). -/
def wantsFull (s : State) (code : Nat) : Bool :=
  code = rSTANDBY && (get s TWL.TROLE_PROLE != rSTANDBY || (Config.freeWord (draw s).1).getLsbD 0)

/-- ROLE (R329): the partner's role and applied generation; a yielding unit beside an active partner is its standby again, an active one
answers a request for a FULL checkpoint (R336). A partner that drives has outlived its FAIL (R342; DEDUCED, log entry 128). -/
def execRole (code _unit cgen : Nat) (s : State) : Host.Outcome State Fault Refusal :=
  onTwinMsg s (
    let s0 := reported (puts (draw s).2 [(TWL.TROLE_PROLE, code), (TWL.PCGEN_N, cgen)]) cgen
    let s1 := if code = rACTIVE ∨ code = rTAKEOVER then { s0 with twl := { s0.twl with failRx := none } } else s0
    if !s1.twl.paired then s1
    else if wantsFull s code then pairFull (pairRole s1 code)
    else pairRole s1 code)

/-- ROLE_SEND (R329). -/
def execRoleSend (s : State) : Host.Outcome State Fault Refusal := onTwin s (sendRole s)

/-! ### Pauses, failures and takeover (R340–R345) -/

/-- PAUSE (R340): the partner's heartbeat quads have stopped. -/
def execPause (s : State) : Host.Outcome State Fault Refusal := onTwinMsg s (holdPause s true)

/-- RESUME (R340): a heartbeat quad of the partner drives again. -/
def execResume (s : State) : Host.Outcome State Fault Refusal := onTwinMsg s (holdPause s false)

/-- PAUSE_EXPIRY (R340): 10 s after the PAUSE. -/
def execPauseExpiry (s : State) : Host.Outcome State Fault Refusal := onTwin s (holdPause s false)

/-- FAIL (R341, R342). -/
def execFail (cls : Nat) (s : State) : Host.Outcome State Fault Refusal :=
  onTwinMsg s { s with twl := { s.twl with failRx := some cls } }

/-- OWN_FAILURE (R341): FAIL is sent and the unit is ISOLATED; it drives nothing any more. -/
def execOwnFailure (cls : Nat) (s : State) : Host.Outcome State Fault Refusal :=
  onTwin s (if failClass s cls ∧ role s ≠ rISOLATED then setRole (sendFail s cls) rISOLATED else s)

/-- HBVIOL (R340, R342): absence of 3 × T_HP while the link runs, with no PAUSE and no FAIL. -/
def execHbviol (s : State) : Host.Outcome State Fault Refusal :=
  onTwin s (
    if (role s = rSTANDBY ∨ role s = rYIELD ∨ role s = rISOLATED) ∧ !twinSilent s ∧ !flag s TWL.TROLE_PAUSE ∧ s.twl.failRx = none ∧ !anyPresent s then
      raise (absentFor s 3) pTWL 15
    else s)

/-- TAKEOVER (R342, R343): absence of 3 × T_HP, with the link silent or a FAIL from the partner, and no own failure. -/
def execTakeover (s : State) : Host.Outcome State Fault Refusal :=
  onTwin s (
    if (role s = rSTANDBY ∨ role s = rYIELD) ∧ (twinSilent s ∨ s.twl.failRx ≠ none) ∧ !flag s TWL.TROLE_PAUSE ∧ ownFail s = none ∧ !anyPresent s then
      let s1 := raise (bumpSat (setRole (absentFor s 3) rTAKEOVER) TWL.NTKO_N) pTWL 10
      checkActive { s1 with twl := { s1.twl with failRx := none } }
    else s)

/-- Whether a driving heartbeat quad shows foreign excitation (R345): its current departs by more than 25 % from its value at the end of its
last settle, or it is at the current limit. -/
def foreignSeen (s : State) : Bool :=
  (heartQuads s).any fun e => flag s (BNK.QSTAT_ON e.1 e.2) && (departs s e.1 e.2 4 || flag s (BNK.QSTAT_ILIM e.1 e.2))

/-- FOREIGN (R345): foreign excitation while this unit drives: unit B yields, unit A raises FOREIGN and keeps driving. -/
def execForeign (s : State) : Host.Outcome State Fault Refusal :=
  onTwin s (
    if (role s = rACTIVE ∨ role s = rTAKEOVER) ∧ foreignSeen s then
      if s.twl.strap = 2 then yieldRole s else raise (putB s TWL.TROLE_FOREIGN true) pTWL 14
    else s)

/-- TWIN_LINK_LOST (R328, R337, R340, R346): no good codeword for 2 ms. -/
def execTwinLinkLost (s : State) : Host.Outcome State Fault Refusal :=
  onTwin s (
    if s.twl.silent then s
    else
      fallSilent s { s with twl := { s.twl with silent := true, paired := false } })

/-! ### Summaries (R334) -/

/-- A channel's N and mean for interval `k`. -/
def chanSum (s : State) (k ch : Nat) : Nat × Int :=
  let p := tget (chan s ch).sums k (0, 0)
  (min p.1 255, if p.1 = 0 then 0 else (2 * p.2 + p.1) / (2 * p.1))

/-- The summary of interval `k`. -/
def summaryOf (s : State) (k : Nat) : List (Nat × Int) := (List.range 784).map (chanSum s k)

/-- Interval `k` and those before it have been summarised. -/
def dropSums (s : State) (k : Nat) : State :=
  forEach ((List.range 784).filter fun ch => (chan s ch).sums.any fun e => decide (e.1 ≤ k)) (fun s ch =>
    setChan s ch { chan s ch with sums := (chan s ch).sums.filter fun e => decide (k < e.1) }) s

/-- The words of a summary frame under the twin session's key. -/
def summaryWords (key : List Word) (k : Nat) (l : List (Nat × Int)) : List Word :=
  let ws := [wd (2 * 2 ^ 24), wd k] ++ l.map fun e => wd (e.1 * 2 ^ 24 + ofSigned 24 e.2)
  ws ++ exactly 4 (Config.twinTag key ws)

/-- Whether a channel's bank changed on either unit within the last 3 intervals. -/
def freshCfg (s : State) (k ch : Nat) : Bool :=
  match (bank s (bankOfCh ch)).cfgK with
  | none => false
  | some c => decide (k < c + 3)

/-- Whether a channel is compared, and whether it then disagrees. -/
def disagrees (s : State) (k ch : Nat) (a b : Nat × Int) : Bool :=
  a.1 = b.1 && a.1 != 0 && !freshCfg s k ch && decide (get s TWL.AGREE_CODES < (a.2 - b.2).natAbs)

/-- Compare the two summaries of interval `k`: three disagreeing intervals of a channel in a row set DIS, three without any clear it; an interval
that does not follow the last one compared begins a new row. DISCH shows the lowest channel of the last disagreeing interval (R350). -/
def compareSums (s : State) (k : Nat) (own peer : List (Nat × Int)) : State :=
  let next : Bool := s.twl.lastCmp.any fun l => k = l + 1
  let bad := (List.range 784).filter fun ch => disagrees s k ch (own.getD ch (0, 0)) (peer.getD ch (0, 0))
  let s0 := forEach (List.range 784) (fun s ch =>
    let n := if bad.contains ch then (if next then (chan s ch).disRun else 0) + 1 else 0
    if (chan s ch).disRun = n then s else setChan s ch { chan s ch with disRun := n }) s
  let s1 := { s0 with twl := { s0.twl with lastCmp := some k } }
  match bad with
  | [] =>
    let n := (if next then s1.twl.goodRuns else 0) + 1
    let s2 := { s1 with twl := { s1.twl with goodRuns := n } }
    if 3 ≤ n then putB s2 TWL.TROLE_DIS false else s2
  | low :: _ =>
    let s2 := puts (bumpSat { s1 with twl := { s1.twl with goodRuns := 0 } } TWL.NDIS_N) [(TWL.DISCH_VAL, 1), (TWL.DISCH_CH, low)]
    if bad.any fun ch => 3 ≤ (chan s2 ch).disRun then raise (putB s2 TWL.TROLE_DIS true) pTWL 12 else s2

/-- The standby, or an isolated unit (R346), compares once it has both summaries of an interval; a frame gives the low 32 bits of its
number. -/
def trySums (s : State) : State :=
  match s.twl.ownSum, s.twl.peerSum with
  | some a, some b =>
    if a.1 % 2 ^ 32 = b.1 % 2 ^ 32 ∧ (role s = rSTANDBY ∨ role s = rISOLATED) then
      compareSums { s with twl := { s.twl with ownSum := none, peerSum := none } } a.1 a.2 b.2
    else s
  | _, _ => s

/-- SUMMARY (R334): the active unit's summary frame. -/
def execSummary (k : Nat) (l : List (Nat × Int)) (s : State) : Host.Outcome State Fault Refusal :=
  onTwinMsg s (if twinUp s then trySums { s with twl := { s.twl with peerSum := some (k, l) } } else s)

/-- SUMMARY_SEND (R334, R346): interval `k` is complete: the active unit sends its summary, a standby compares, an isolated unit sends
FAIL in its place; its class is its own failure's, and a free value where it has none. -/
def execSummarySend (k : Nat) (s : State) : Host.Outcome State Fault Refusal :=
  onTwin s (
    let keep (s1 : State) : State := trySums { dropSums s1 k with twl := { s1.twl with ownSum := some (k, summaryOf s k) } }
    if role s = rACTIVE ∨ role s = rTAKEOVER then (if twinUp s then sendFrame (dropSums s k) 2 2 (summaryWords s.twl.key k (summaryOf s k)) else dropSums s k)
    else if role s = rISOLATED then
      match ownFail s with
      | some c => keep (sendFail s c)
      | none => keep (sendFail (draw s).2 ((Config.freeWord (draw s).1).toNat % 16))
    else if role s = rSTANDBY then keep s
    else dropSums s k)

/-! ### Page TWL (R346, R349, R350) -/

/-- The reasons a TCMD is rejected. -/
def violTWL (s : State) (off : Nat) (w : Word) : List Viol :=
  if off = 0x40 then
    match wbits w 3 0 with
    | 0 => []
    | 1 => viol (!(role s = rSTANDBY || role s = rYIELD)) .state off
    | 2 => viol (role s != rISOLATED || (ownFail s).isSome) .state off
    | 3 =>
      let p := get s TWL.PHWORD
      viol (!(role s = rACTIVE && s.twl.paired && get s TWL.TROLE_PROLE = rSTANDBY && !bit p 22 && !bit p 25 && !bit p 24)) .state off
    | 4 => viol (role s != rSTANDBY) .state off
    | _ => [(.range, off)]
  else []

/-- The effect of an accepted TCMD: ISOLATE, REJOIN, RELEASE, RESYNC. -/
def effTWL (s : State) (w : Word) : State :=
  match wbits w 3 0 with
  | 1 => setRole s rISOLATED
  | 2 =>
    let s1 := setRole s rPAIRING
    if s1.twl.paired then pairFull (pairRole s1 (get s1 TWL.TROLE_PROLE)) else s1
  | 3 => setRole (sendFail s 9) rSTANDBY
  | 4 => askFull s
  | _ => s

/-- What the computed registers of page TWL read. THP shows its reset value until a commit has set what it follows (log entry 128); SILNT
counts CCLK cycles, which no change of domain time moves. -/
def viewTWL (s : State) (off : Nat) : Option Nat :=
  let x := link s 2
  if off = 0x44 then some (storedWord s pTWL 0x44 + (!twinSilent s).toNat * 256 + (exciteSeen s).toNat * 128)
  else if off = 0x5C then some (if s.twl.thpShown then min (thpNs s / 1000) (2 ^ 32 - 1) else 4000)
  else if off = 0x60 then some (absenceUs s)
  else if off = 0x64 then some (healthWord s)
  else if off = 0x90 then some (min ((s.cyc - s.twl.goodC) * 100 / 24576) (2 ^ 32 - 1))
  else if off = 0x94 then some (pack [(TWL.TLSTAT_RXACT, x.rxact), (TWL.TLSTAT_TXACT, x.txact), (TWL.TLSTAT_FBTX, x.fbtx.toNat),
    (TWL.TLSTAT_FBRX, x.fbrx.toNat)])
  else none

/-! ### Events of the schedule and the banks that act on TWILL (R52, R54, R82, R87, R143, R336) -/

/-- A CKPT point (R58, R336): the active unit cuts a checkpoint. -/
def execCkptPoint (i : Nat) (s : State) : Host.Outcome State Fault Refusal :=
  if 256 ≤ i then .fault .noSuchUnit
  else .next (atPoint s i actCKPT fun _ => cut s)

/-- Fire the points of entry `i` that an index correction in the cycle of instant `t` jumped over, up to before position `lim` (R54). -/
def jumpEntry (t i : Nat) (lim : Int) : Nat → State → State
  | 0, s => s
  | f + 1, s =>
    let e := entAt s (liveT s) i
    match nextPoint s i e.act with
    | none => s
    | some _ =>
      if e.axis = axANGLE ∧ anglePoint s e (progress s i).k < lim ∧ beforeStop s t ∧ beforeEpoch s t then
        let s1 := match e.act with
          | 1 => firePoint s i e (some t)
          | 2 => fireSwap s i e
          | 3 => fireOptp s i e
          | _ => cut s
        jumpEntry t i lim f (advanceEntry (pulsePads s1 i) i e)
      else s

/-- The points an index correction from position `old` to `new` jumps over fire in this cycle, kind by kind (R54, R67); the motion is
recorded, so that an EPOCH point among them comes first and leaves the old table's to the switch. -/
def jumpPoints (s : State) (t : Nat) (old new : Int) : State :=
  [actSWAP, actOPTP, actOPEN, actCKPT].foldl (fun s a =>
    forEach ((liveIdx s).filter fun i => (entAt s (liveT s) i).act = a && (entAt s (liveT s) i).axis = axANGLE)
      (fun s i => jumpEntry t i new (new - old).toNat s) s) s

/-- INDEX_PULSE (R52, R54): a forward index pulse forces the count to 0 through the nearest wrap; exactly half a turn is forced backward,
its deviation positive (DESIGN CHOICE, log entry 121). The axis stands on count 0 then, which it reaches by a motion of one count. -/
def execIndexPulse (t : Nat) (s : State) : Host.Outcome State Fault Refusal :=
  let n := cpt s
  if pstate s pAXS = stOFF ∨ get s AXS.ECFG_SRC ≠ 1 ∨ !flag s AXS.ECFG_ZEN ∨ flag s AXS.ASTAT_EREV ∨ n = 0 then .next s
  else
    let c := get s AXS.ECNT_CNT
    let up : Bool := decide (n < 2 * c)
    let dev : Int := if up then (c : Int) - n else c
    let s1 := put s AXS.IDXERR_ERR (ofSigned 32 dev)
    let s2 := if get s AXS.IDXTOL_TOL < dev.natAbs then raise s1 pAXS 11 else s1
    let d := lessDly s t
    if up then
      let old := angleNow s2
      let new := (s2.axs.turn + 1) * n
      .next (schIdle (jumpPoints (setAngle s2 (s2.axs.turn + 1) 0 d true [⟨old, new - 1, d, d, true⟩, ⟨new - 1, new, d, d, false⟩])
        (cycleAt s (t * 65536)) (old + 1) new))
    else .next (setAngle s2 s2.axs.turn 0 d true [⟨s2.axs.turn * n - 1, s2.axs.turn * n, d, d, false⟩])

/-- At the end of a settle the current of the channel's quad is kept for comparison (R91, R345). -/
def settleRef (s : State) (ch : Nat) : State :=
  let n := ch / 16
  let q := ch % 16 / 4
  if ch < 768 ∧ flag s (BNK.QSTAT_ON n q) then
    setBank s n { bank s n with iRef := tset (bank s n).iRef q (some (get s (BNK.QMEAS_IMEAS n q))) none }
  else s

/-- SETTLE_END (R143): the settle end of a channel's path has emerged. -/
def execSettleEnd (ch : Nat) (pathE : Bool) (s : State) : Host.Outcome State Fault Refusal :=
  if 784 ≤ ch then .fault .noSuchUnit
  else
    let c := chan s ch
    if pathE then
      match c.endE with
      | some e => if e < sampleInProgress s then .next (setChan s ch { c with endE := none }) else .next s
      | none => .next s
    else if c.mwLeft = 0 ∧ c.endM.all (emerged s ch) then
      .next (checkActive (setSETST (settleRef (setChan s ch { c with endM := none }) ch) ch false))
    else .next s

/-- Whether this tick is a point of a bank's blanking grid (R81): HALFP path M output periods apart, which in mains-window mode are turns of
the axis (R142); there it is the tick in which the axis reaches the point. -/
def onGrid (s : State) (n : Nat) : Bool :=
  let g := (bank s n).grid
  let t := nowTicks s
  let half := get s (BNK.XCTL_HALFP n)
  decide (g ≤ t) &&
    (if mwin s n then
      let span := half * get s (BNK.FRESP_MWN n) * 2 ^ 32
      let turns (k : Nat) : Nat := (mainsAt16 s (tickTime k) - mainsAt16 s (tickTime g)) / span
      t = g || turns t != turns (t - 1)
    else (t - g) % (half * periodTicks s n) = 0)

/-- BLANKING_WINDOW (R81, R82, R343, R345): on a point of the bank's grid held changes take effect; at a takeover the bank's quads begin to
drive, unless unit B finds excitation present. Off the grid there is no window, and nothing happens. -/
def execBlankingWindow (n : Nat) (s : State) : Host.Outcome State Fault Refusal :=
  if 48 ≤ n then .fault .noSuchUnit
  else if !producing s n ∨ !onGrid s n then .next s
  else
    let s1 := blankStart s n
    if role s1 = rTAKEOVER then
      if s1.twl.strap = 2 ∧ anyPresent s ∧ !heartbeatDrives s1 then .next (yieldRole s1) else .next (checkActive (driveBank s1 n))
    else .next s1

/-- QOPEN_CLEAR (R87): the quad's monitor has been normal for a whole half-period. -/
def execQopenClear (n q : Nat) (s : State) : Host.Outcome State Fault Refusal :=
  if 48 ≤ n ∨ 4 ≤ q then .fault .noSuchUnit else .next (checkActive (qopenClear s n q))

end Sys2Proof.Machine
end

