-- ==== Sys2Proof/Machine/Rx.lean ====
section
/-! DEFINITION. What codewords bring (R286–R289, R291–R293, R310, R329): the words they deliver, the transport messages among them, and the
lanes' link channels. A message so received acts as the command of its own does. -/

namespace Sys2Proof.Machine

/-- The state a command leaves; the state before it where it stops. -/
def after (s : State) (o : Host.Outcome State Fault Refusal) : State :=
  match o with
  | .next t => t
  | _ => s

/-- The unused low bits of each message of types 3 to 12 (R310). -/
def spareBits (type : Nat) : Nat := [0, 0, 20, 4, 4, 20, 35, 0, 24, 20].getD (type - 3) 0

/-- A transport message of a trunk port (R289, R310): one whose reserved bits are not 0 is ignored, and so are types 0 and 13 to 15. -/
def portMsg (s : State) (p type b : Nat) : State :=
  if 3 ≤ type ∧ b % 2 ^ spareBits type ≠ 0 then s
  else after s (match type with
    | 3 => execAck p (cbits b 43 36) (cbits b 35 34) (cbits b 33 28) (cbits b 27 0) s
    | 4 => execResend p (cbits b 43 36) (cbits b 35 34) (cbits b 33 28) (cbits b 27 0) s
    | 5 => execCredit p (cbits b 43 28) (cbits b 27 20) s
    | 6 => execBeacon p (cbits b 43 36) (cbits b 35 20) (cbits b 19 12) (cbits b 11 4) s
    | 7 => execTdist p (toSigned 32 (cbits b 43 12)) (cbits b 11 4) s
    | 8 => execCand p (cbits b 43 36) (cbits b 35 28) (cbits b 27 20) s
    | 9 => execColl p (cbits b 43 36) (bit b 35) s
    | 10 => execReport p (cbits b 43 36) (cbits b 35 34) (cbits b 33 30) (cbits b 29 0) s
    | 11 => execTopo p (cbits b 43 36) (cbits b 35 28) (cbits b 27 24) s
    | 12 => execTkeep p (cbits b 43 36) (cbits b 35 28) (cbits b 27 20) s
    | _ => .next s)

/-- A transport message of the twin link (R329): types 0 and 8 to 15 are ignored. -/
def twinMsg (s : State) (type b : Nat) : State :=
  after s (match type with
    | 3 => execHealth (wd (cbits b 43 12)) s
    | 4 => execPause s
    | 5 => execResume s
    | 6 => execFail (cbits b 43 40) s
    | 7 => execRole (cbits b 43 40) (cbits b 39 38) (cbits b 37 6) s
    | _ => .next s)

/-- A transport message of 48 bits (R289). -/
def transportMsg (s : State) (l m : Nat) : State :=
  let b := cbits m 43 0
  match cbits m 47 44 with
  | 1 => after s (execCaps l (cbits b 43 32) (cbits b 31 28) s)
  | 2 => after s (execTime l (cbits b 43 42) (bit b 41).toNat (cbits b 40 37) (cbits b 31 0) s)
  | t => if l < 2 then portMsg s l t b else twinMsg s t b

/-- One received word (R288, R289): every 25th is a control word, and the TCM bits of four of them make a message. -/
def takeWord (a : Link × List Nat) (w : Word) : Link × List Nat :=
  let x := { a.1 with rxW := (a.1.rxW + 1) % 100 }
  if a.1.rxW % 25 ≠ 0 then (x, a.2)
  else
    let t := (if a.1.rxW = 0 then 0 else a.1.rxT) * 4096 + wbits w 11 0
    if a.1.rxW = 75 then ({ x with rxT := 0 }, a.2 ++ [t]) else ({ x with rxT := t }, a.2)

/-- The words a codeword has delivered are taken in order, and then the messages they complete. -/
def takeWords (s : State) (l : Nat) : State :=
  let r := (link s l).rxWords.foldl takeWord (link s l, [])
  r.2.foldl (fun s m => transportMsg s l m) (setLink s l r.1)

/-- A codeword on a lane decodes: its words and its LINK field are taken; after this receiver's RRDY in a fallback data has resumed. -/
def goodCw (s : State) (l lane : Nat) (c : RxCw) : State :=
  let x := link s l
  let n := laneAt x lane
  let x1 := { x with lanes := tset x.lanes lane { n with bad := 0, last := some c.csn } {}, lost := x.lost && !x.rrdyOwn }
  linkField (takeWords (takeCw (setLink s l x1) l lane c) l) l lane c.field

/-- CODEWORD (R280, R281, R286–R289, R291–R293): the levels of a codeword are read and decoded; one that does not decode is counted. -/
def execCodeword (l lane : Nat) (lv : List Int) (s : State) : Host.Outcome State Fault Refusal :=
  withLink l s (
    if !linkRuns s l then s
    else
      let r := receive (link s l) lane lv
      let k := laneAtPos (link s l) lane
      match r.1 with
      | none => badCw (setLink s l r.2) l k
      | some c => goodCw (setLink s l r.2) l k c)

end Sys2Proof.Machine
end

