-- ==== Sys2Proof/Machine/Mgt.lean ====
section
/-! DEFINITION. The management block (R351–R371): processors and their restarts, sensors, the general log's view, ownership,
sessions, stream keys, maker mode, and pages DEV, MGT and SEC. -/

namespace Sys2Proof.Machine

/-! ### Processors and loaders (R351, R352, R383) -/

abbrev ldRUNNING : Nat := 0
abbrev ldBOOT : Nat := 1
abbrev ldERASE : Nat := 2
abbrev ldWRITE : Nat := 3
abbrev ldREADBACK : Nat := 4
abbrev ldWAIT : Nat := 5

/-- The loader state of processor `p` (0 MGP, 1 MTP, 2 LKP, 3 FES). -/
def loader (s : State) (p : Nat) : Nat := get s (UPD.ILVL_LST p)

/-- MTP with its domain off: it is off, and its loader's state shows its reset value (R351, R369; DESIGN CHOICE, log entry 129). -/
def mtpOff (s : State) : State := puts s [(UPD.ILVL_LST 1, ldRUNNING), (MGT.PRST_ST 1, 0)]

/-- A processor enters a loader state; it runs only in RUNNING. MTP without power does neither (R351). -/
def setLoader (s : State) (p st : Nat) : State :=
  if p = 1 ∧ !domainOn s 2 then mtpOff s
  else puts s [(UPD.ILVL_LST p, st), (MGT.PRST_ST p, if st = ldRUNNING then 2 else 1)]

/-- Whether a processor's loader is in RUNNING; that of MTP without power is not. -/
def loaderUp (s : State) (p : Nat) : Bool := loader s p = ldRUNNING && (p != 1 || domainOn s 2)

/-- The loader state word of MGP (R383). The ERR field shows USTAT.ERR; PCT is the percent of its region erased or written, a
measured value the model has no command for: free in ERASE and WRITE, 0xFF otherwise. -/
def loaderWord (s : State) : Word × State :=
  let st := loader s 0
  let d := draw s
  let pct := if st = ldERASE ∨ st = ldWRITE then (Config.freeWord d.1).toNat % 101 else 0xFF
  (wd (st * 2 ^ 28 + pct * 2 ^ 16 + get s UPD.USTAT_ERR * 256), d.2)

/-! ### Sessions (R25, R356, R358, R359) -/

/-- Raise an event that is logged each time, also where its bit stands already (R354). -/
def raiseEach (s : State) (page ev : Nat) : State :=
  let s1 := raise s page ev
  if bit (get s (hPEVT page)) ev then logEv s1 page ev srcHW else s1

/-- Log a session event the PEVT bits do not number. -/
def logSession (s : State) (code : Nat) : State := logEv s pSEC code srcHW

/-- The update buffer is given up, its contents discarded (R377). -/
def releaseBuffer (s : State) : State :=
  let s1 := clearRegs s fun page off => page = pUPD && decide (0x400 ≤ off)
  let s2 := puts s1 [(UPD.USTAT_STAGE, 0), (UPD.USTAT_HELD, 0), (UPD.USTAT_SID, 0), (UPD.USTAT_TYPE, 0), (UPD.UVER_VER, 0),
    (UPD.ULVL_PLV, 0), (UPD.ULVL_RLV, 0)]
  let s3 := setBusy { s2 with upd := { s2.upd with segs := [], checking := false } } pUPD false
  if pstate s3 pUPD = stRUN then setPState s3 pUPD stIDLE else s3

/-- The secret in staging is overwritten with zeros (R363). -/
def hideSecret (s : State) : State := { s with sec := { s.sec with shown := none } }

/-- A session ends without the release of the buffer: it is logged, and a secret it sees in staging goes. -/
def dropSession (s : State) (sid : Nat) : State :=
  match session s sid with
  | none => s
  | some _ =>
    let s1 := setSession s sid none
    logSession (if s1.sec.shown = some sid then hideSecret s1 else s1) Config.codeClosed.toNat

/-- A session closes (R361): later transactions are discarded, and the update buffer it holds is released (R377). -/
def closeSession (s : State) (sid : Nat) : State :=
  match session s sid with
  | none => s
  | some _ =>
    let s1 := dropSession s sid
    if flag s1 UPD.USTAT_HELD ∧ get s1 UPD.USTAT_SID = sid then releaseBuffer s1 else s1

/-- The sessions there are, rising. -/
def sessionIds (s : State) : List Nat := (List.range 8).filter fun i => (session s i).isSome

/-- Close every session a condition names. -/
def closeWhere (s : State) (p : Nat → Session → Bool) : State :=
  forEach ((sessionIds s).filter fun i => (session s i).any (p i)) closeSession s

/-- A service-port message leaves (R386). -/
def countTx (s : State) (p : Path) : State := if p = .svc then bumpMod s SVC.SVTX_N else s

/-- A service-port message arrives. -/
def countRx (s : State) (p : Path) : State := if p = .svc then bumpMod s SVC.SVRX_N else s

/-- The hub's serial number (R368). -/
def serial (s : State) : Nat := get s DEV.SERHI_SER * 2 ^ 32 + get s DEV.SERLO_SER

/-- Whether the hub is owned (R356). -/
def owned (s : State) : Bool := flag s SEC.OSTAT_OWNED

/-- Whether not-after times are checked (R359). -/
def timeKnown (s : State) : Bool := !flag s TSU.TSTAT_FRN || s.tsu.setMade

/-- Whether a role certificate is accepted (R359). -/
def certOk (s : State) (c : Cert) : Bool :=
  c.good && (c.serial = serial s || c.serial = 0) && (!timeKnown s || decide (nowNs s < c.notAfter * 1000000000))

/-- Why an OPEN is refused (R358), in the order of its list. A session in set-up, opened and not yet confirmed, counts among the 8
sessions of R25 (DESIGN CHOICE, log entry 103). -/
def openRefused (s : State) (path : Path) (cert : Option Cert) : Option Nat :=
  if 8 ≤ (sessionIds s).length then some Reason.busy.code
  else if owned s then
    match cert with
    | none => some Reason.auth.code
    | some c => if certOk s c then none else some Reason.auth.code
  else if path = .svc then none else some Reason.auth.code

/-- The words of a session message from the hub (R360): S0, TSEQ, and the ciphertext and tag of its plaintext under the direction's key, with
its salt and TSEQ as the nonce, S0 and S1 authenticated beside it. -/
def sessionWords (x : Session) (sid tseq : Nat) (plain : List Word) : List Word :=
  let head := [wd (sid * 2 ^ 24 + plain.length % 65536), wd tseq]
  head ++ exactly (plain.length + 4) (Config.gcmSeal ((x.keys.drop 10).take 8) ((x.keys.drop 18).take 2 ++ [wd tseq]) head plain)

/-- The plaintext of a reply (R360): T0, the address or parameter it answers, and its data. -/
def replyWords (r : Reply) : List Word := [wd (3 * 2 ^ 28 + (r.data.length - 1) * 2 ^ 16 + r.status * 256), wd r.t1] ++ r.data

/-- M0 of a session message to the collector (R362). -/
def sessionM0 (s : State) : Word := wd (2 ^ 28 + ownPos s * 2 ^ 10 + ownUnit s * 256)

/-- A session message leaves on its path; over ZLP in a management frame, towards the collector (R25, R362). -/
def carry (s : State) (path : Path) (ws : List Word) : State :=
  let s1 := countTx s path
  match path, egressPort s with
  | .zlp, some p => sendFrame s1 p 1 (sessionM0 s :: ws)
  | _, _ => s1

/-- An ACCEPT leaves (R358): its status, and the number of the session it opens or the loader state word, and its body. -/
def sendAccept (s : State) (path : Path) (status sid : Nat) (lst : Word) (body : List Word) : State :=
  emit (carry s path ([wd status, if status = 0 then wd sid else lst] ++ body)) (.accept path status sid lst body)

/-- Whether the resident loader answers an OPEN (R34): MGP does not run, and the loader does not wait on the service port. -/
def loaderRefuses (s : State) (path : Path) : Bool := !mgpRuns s && !(loader s 0 = ldWAIT && path = .svc)

/-- The loader's answer to an OPEN (R34): an ACCEPT of BUSY with its state word, and nothing else changes. -/
def loaderAnswer (s : State) (path : Path) : State :=
  let w := loaderWord s
  sendAccept w.2 path Reason.busy.code 0 w.1 []

/-- The words of a role certificate (R357). -/
def certWords (c : Cert) : List Word :=
  [wd (0x40000 + Role.code c.role), wd (c.serial / 2 ^ 32), wd c.serial, wd (c.notAfter / 2 ^ 32 % 2 ^ 16), wd c.notAfter] ++ exactly 49 c.rest

/-- What ACCEPT carries up to its signature (R358): Q_H and N_H of the ephemeral key and nonce drawn at `n`, device certificate and
endorsement. -/
def acceptBody (s : State) (n : Nat) : List Word :=
  exactly 24 (Config.ephKey n) ++ (List.range 8).map (fun i => Config.freeWord (n + i)) ++ s.sec.cert ++ s.sec.endorse

/-- The ACCEPT that opens session `sid` for an OPEN's words: its content and the device-key signature over both messages up to it
(R358). -/
def acceptWords (s : State) (sid : Nat) (open_ : List Word) : List Word :=
  let b := acceptBody s s.fresh
  b ++ deviceSig (open_ ++ [wd sid] ++ b)

/-- The keys and salts of a session (R22, R358). -/
def sessionKeys (s : State) (qr nr : List Word) : List Word := keysOf s.fresh qr nr (nonceAt s.fresh)

/-- SESSION_OPEN (R358): an ACCEPT opens a session, or awaits its CONFIRM while the hub is owned, or carries the status of a refusal. -/
def execSessionOpen (path : Path) (m : OpenMsg) (s : State) : Host.Outcome State Fault Refusal :=
  let s0 := countRx s path
  if loaderRefuses s path then .next (loaderAnswer s path)
  else match openRefused s0 path m.cert with
  | some st => .next (logSession (sendAccept s0 path st 0 0#32 []) Config.codeRefused.toNat)
  | none =>
    let sid := ((List.range 8).find? fun i => (session s0 i).isNone).getD 0
    let role := if owned s0 then (m.cert.map (·.role)).getD .owner else .owner
    let msg := exactly 24 m.qr ++ exactly 8 m.nr ++ (if owned s0 then (m.cert.map certWords).getD [] else [])
    let x : Session := { role := role, path := path, open_ := !owned s0, last := s0.cyc, keys := sessionKeys s0 m.qr m.nr }
    let s1 := sendAccept (setSession { s0 with fresh := s0.fresh + 8 } sid (some x)) path 0 sid 0#32 (acceptWords s0 sid msg)
    let s2 := if owned s0 ∧ !timeKnown s0 then logSession s1 0x0102 else s1
    .next (if owned s0 then s2 else raiseEach s2 pSEC 8)

/-- A set-up attempt ends (R358): code 0x0101, SESSFAIL. -/
def attemptFails (s : State) (sid : Nat) : State := raise (logSession (setSession s sid none) 0x0101) pSEC 9

/-- The attempt under way at a session number. -/
def attempt (s : State) (sid : Nat) : Option Session :=
  match session s sid with
  | some x => if x.open_ then none else some x
  | none => none

/-- CONFIRM (R358): the signature verifies and the session opens, or the attempt ends. -/
def execConfirm (sid : Nat) (good : Bool) (s : State) : Host.Outcome State Fault Refusal :=
  match attempt s sid with
  | none => .next s
  | some x =>
    let s1 := countRx s x.path
    .next (if good then raiseEach (setSession s1 sid (some { x with open_ := true, last := s.cyc })) pSEC 8 else attemptFails s1 sid)

/-- SESSFAIL (R358): no CONFIRM for 5 s ends the attempt. -/
def execSessfail (sid : Nat) (s : State) : Host.Outcome State Fault Refusal :=
  match attempt s sid with
  | none => .next s
  | some _ => .next (attemptFails s sid)

/-- SESSION_TIMEOUT (R361): a session with no message for STMO seconds closes. -/
def execSessionTimeout (sid : Nat) (s : State) : Host.Outcome State Fault Refusal :=
  match session s sid with
  | some x => .next (if x.open_ then closeSession s sid else s)
  | none => .next s

/-- The time of a notice, laid out as W2–W4 (R360). -/
def noticeTime (s : State) : List Word := timeWords (now16 s) (frnNow s) (islNow s)

/-- The plaintext of a notice (R360, KIND 5). -/
def noticeWords (s : State) (page : Nat) : List Word :=
  [wd (5 * 2 ^ 28 + 3 * 2 ^ 16), wd page, wd (get s (hPEVT page))] ++ noticeTime s

/-- NOTICE (R361): a due notice of a page goes to a session with PEVT and the time, under its own TSEQ; one per page is enough. A page
that does not answer raises none (R429). -/
def execNotice (sid page : Nat) (s : State) : Host.Outcome State Fault Refusal :=
  match session s sid with
  | none => .next s
  | some x =>
    if x.due.contains page ∧ answers s page then
      let s1 := setSession s sid (some { x with due := x.due.filter (· != page), nseq := x.nseq + 1 })
      let ws := sessionWords x sid x.nseq (noticeWords s page)
      .next (emit (carry s1 x.path ws) (.notice sid page (get s (hPEVT page)) x.nseq (noticeTime s) ws))
    else .next s

/-! ### Restarts (R352, R399) -/

/-- A processor stops: MGP's sessions close, because their keys lie in its SRAM; `own` keeps the update buffer (R377, R382). -/
def procStop (s : State) (p : Nat) (own : Bool) : State :=
  if p = 0 then forEach (sessionIds s) (if own then dropSession else closeSession) s else s

/-- A processor restarts on its present image (R352). -/
def procRestart (s : State) (p : Nat) : State :=
  raiseEach (bumpMod (setLoader (procStop s p false) p ldBOOT) (MGT.PRST_RSTC p)) pMGT 10

/-- WATCHDOG (R399): a processor's own watchdog restarts it. -/
def execWatchdog (p : Nat) (s : State) : Host.Outcome State Fault Refusal :=
  if 4 ≤ p then .fault .noSuchUnit
  else if loaderUp s p then .next (procRestart s p) else .next s

/-! ### Sensors (R353) -/

/-- SENSOR_SAMPLE (R353): the readings, and TWARN and MOIST with their re-arming 5 K and 5 %RH below. -/
def execSensorSample (temps : List Int) (rails : List Nat) (ve ie vw iw moist : Nat) (s : State) : Host.Outcome State Fault Refusal :=
  if !mgpRuns s then .next s
  else
    let s1 := forEach (List.range 6) (fun s i => put s (MGT.TDIE_T i) (ofSigned 16 (temps.getD i 0))) s
    let s2 := forEach (List.range 12) (fun s i => put s (MGT.VRAIL_MV i) (rails.getD i 0)) s1
    let s3 := puts s2 [(MGT.TKVE_V, ve), (MGT.TKVE_I, ie), (MGT.TKVW_V, vw), (MGT.TKVW_I, iw), (MGT.MOIST_RH, moist)]
    let lim := toSigned 16 (get s3 MGT.TWARN_T)
    let die := (List.range 6).map fun i => toSigned 16 (get s3 (MGT.TDIE_T i))
    let hot := die.any fun t => decide (lim ≤ t)
    let cool := die.all fun t => decide (t ≤ lim - 500)
    let rh := get s3 MGT.MOIST_RH
    let wet := decide (get s3 MGT.MOISTH_RH ≤ rh)
    let dry := decide (rh + 50 ≤ get s3 MGT.MOISTH_RH)
    let s4 := if hot ∧ s3.mgt.tArmed then raise s3 pMGT 8 else s3
    let s5 := if wet ∧ s3.mgt.mArmed then raise s4 pMGT 9 else s4
    .next { s5 with mgt := { tArmed := !hot && (s3.mgt.tArmed || cool), mArmed := !wet && (s3.mgt.mArmed || dry) } }

/-! ### Pages DEV and MGT (R368, R369) -/

/-- CCLK cycles per second (R257). -/
abbrev cclkHz : Nat := 245760000

/-- UPTM of page DEV. -/
def viewDEV (s : State) (off : Nat) : Option Nat := if off = 0x5C then some (s.cyc / cclkHz % 2 ^ 32) else none

/-- The reasons a word of page DEV is rejected: ENABLE reads 1 and is not cleared (R368). -/
def violDEV (img : State) (off : Nat) : List Viol :=
  if off = 8 then viol (!flag img (hENABLE pDEV)) .state off else []

/-- The reasons a word of page MGT is rejected beyond the fields' own legal sets (R369, R380). -/
def violMGT (s img : State) (off : Nat) (w : Word) : List Viol :=
  if off = 0x40 then
    if wbits w 3 0 = 0 then []
    else viol (wbits w 3 0 != 1) .range off ++ viol (!loaderUp s (wbits w 5 4)) .busy off
  else if off = 0xE0 then viol (decide (get img MGT.CSEL_RF > (if 816 ≤ get img MGT.CSEL_MOD then 2 else 0))) .range off
  else []

/-- The effect of an accepted PCMD. -/
def effMGT (s : State) (w : Word) : State := if wbits w 3 0 = 1 then procRestart s (wbits w 5 4) else s

/-- The words L0–L3 of a log entry (R354). -/
def logWord (e : LogEnt) (k : Nat) : Nat :=
  match k with
  | 0 => e.sec % 2 ^ 32
  | 1 => e.ns
  | 2 => e.page * 2 ^ 20 + e.src * 2 ^ 16 + e.code
  | _ => e.rep * 2 ^ 24 + e.arg

/-- LGE0–LGE3 and LGNUM of page MGT. -/
def viewMGT (s : State) (off : Nat) : Option Nat :=
  if 0xC8 ≤ off ∧ off < 0xD8 then
    some (match s.log[get s MGT.LGIDX_AGE]? with
      | some e => logWord e ((off - 0xC8) / 4)
      | none => 0)
  else if off = 0xD8 then some s.log.length
  else none

/-! ### Ownership and staging (R356, R357, R363, R365, R367) -/

/-- The staging words `a`, `a + 1`, … -/
def staged (s : State) (a n : Nat) : List Word := (List.range n).map fun i => wd (get s (SEC.STG (a + i)))

/-- Staging word `k`. -/
def stg (s : State) (k : Nat) : Nat := get s (SEC.STG k)

/-- Put words into staging from word 0 up. -/
def putStaged (s : State) (ws : List Word) : State :=
  forEach (List.range (min ws.length 128)) (fun s i => put s (SEC.STG i) (ws.getD i 0#32).toNat) s

/-- Whether two staging words name this hub's serial number. -/
def namesSerial (s : State) (a : Nat) : Bool := stg s a = get s DEV.SERHI_SER && stg s (a + 1) = get s DEV.SERLO_SER

/-- The device public key (R370). -/
def devKey (s : State) : List Word := (List.range 24).map fun k => wd (get s (SEC.DPUB k))

/-- What OSTAT, DSTAT and AFPR show of the ownership records. -/
def refreshOwner (s : State) : State :=
  let own := !s.sec.anchor.isEmpty
  let fits := s.sec.endorse.getD 3 0#32 = wd (get s SEC.OGEN_GEN) && !s.sec.endorse.isEmpty && own
  let s1 := putB (putB (putB s SEC.OSTAT_OWNED own) DEV.DSTAT_OWNED own) SEC.OSTAT_ENDRS fits
  put s1 SEC.AFPR_FP (if own then ((Config.sha384 s.sec.anchor).getD 0 0#32).toNat else 0)

/-- An ownership change is on its way to flash. -/
def ownStart (s : State) (op : OwnOp) : State := setBusy { s with sec := { s.sec with op := some op } } pSEC true

/-- OWNCHG (R356): the change is durable and takes effect. -/
def execOwnchg (s : State) : Host.Outcome State Fault Refusal :=
  match s.sec.op with
  | none => .next s
  | some op =>
    let s1 := setBusy { s with sec := { s.sec with op := none } } pSEC false
    let s2 := match op with
      | .install a => { s1 with sec := { s1.sec with anchor := a } }
      | .transfer a g => put { s1 with sec := { s1.sec with anchor := a } } SEC.OGEN_GEN g
      | .release => { s1 with sec := { s1.sec with anchor := [], endorse := [] } }
    .next (raise (refreshOwner s2) pSEC 10)

/-- SECRET_EXPIRY (R363): 60 s after STREAM the secret goes from staging. -/
def execSecretExpiry (s : State) : Host.Outcome State Fault Refusal := .next (hideSecret s)

/-- The source is a session on the service port (R365, R373). -/
def onService (s : State) : Src → Bool
  | .mgp => false
  | .forged _ => false
  | .session sid _ => (session s sid).any fun x => x.path = .svc
  | .token sid _ => (session s sid).any fun x => x.path = .svc

/-- The states that keep maker mode from being entered (R365). -/
def makerState (s : State) : Bool :=
  !(pstate s pSCH = stIDLE || pstate s pSCH = stOFF) || ((List.range 64).any fun c => cstate s c != stOFF && cstate s c != stIDLE) ||
    !(role s = rSINGLE || role s = rPAIRING || role s = rISOLATED)

/-- Whether the staged token is good (R365). -/
def tokenOk (s : State) (good : Bool) : Bool :=
  good && stg s 0 = 0x00050000 && namesSerial s 1 && s.sec.chal = some (stg s 3, stg s 4)

/-- The reasons an SCMD is rejected (R356, R357, R363, R365, R370), judged on the staging the burst leaves. -/
def violScmd (s img : State) (src : Src) (good : Bool) (off : Nat) (w : Word) : List Viol :=
  let op := wbits w 3 0
  let rec_ := match op with
    | 1 => viol (stg img 0 != 0x00010000) .range off ++ viol (owned s) .state off
    | 2 => viol (!(good && owned s && stg img 0 = 0x00030000 && namesSerial img 1 && stg img 3 = get s SEC.OGEN_GEN &&
        staged img 4 24 = devKey s)) .range off
    | 3 => viol (!(good && owned s && stg img 0 = 0x00020000 && stg img 1 = get s SEC.OGEN_GEN + 1)) .range off
    | 4 => viol (!ownerSession s src) .auth off
    | 5 => viol (!ownerSession s src) .auth off
    | 6 => []
    | 7 => viol (!(ownerSession s src && onService s src)) .auth off
    | 8 => viol (!(ownerSession s src && onService s src)) .auth off ++ viol (makerState s) .state off ++
        viol (!tokenOk img good) .range off
    | 9 => []
    | _ => [(.range, off)]
  if op = 0 then [] else rec_ ++ viol (flag s (hBUSY pSEC)) .busy off

/-- The reasons a word of page SEC is rejected beyond the fields' own legal sets. -/
def violSEC (s img : State) (src : Src) (good : Bool) (off : Nat) (w : Word) : List Viol :=
  if off = 0x40 then violScmd s img src good off w else []

/-- A signature operation begins (R370): progress in units of 1 %, with PCT 0xFF while the work is under way. -/
def signed (s : State) : State :=
  { puts s [(hLIM pSEC, 100), (hPOS pSEC, 0), (hPCT pSEC, 0xFF)] with sec := { s.sec with signing := true } }

/-- A signature operation ends. No row and no time is given for its end: it is the next cycle in which no command waits (DESIGN CHOICE, log
entry 53). -/
def signEnd (s : State) : State :=
  if s.sec.signing then progDone { s with sec := { s.sec with signing := false } } pSEC else s

/-- The number of the session a command came from. -/
def srcSid : Src → Option Nat
  | .mgp => none
  | .forged _ => none
  | .session sid _ => some sid
  | .token sid _ => some sid

/-- RELEASE and TRANSFER close other sessions (R356, R364): every one at RELEASE, those with waiting transactions at TRANSFER. -/
def closeOthers (s : State) (src : Src) (all : Bool) : State :=
  closeWhere s fun i x => some i != srcSid src && (all || !x.held.isEmpty)

/-! ### Stream secret (R363) -/

/-- When the newest block of a context begins that is open or still on its way to CANVAS. -/
def newestPending (s : State) (c : Nat) : Option Nat :=
  let x := ctx s c
  let l := (x.cur.take 1).map (·.t) ++ x.closed.flatMap (fun b => (b.slots.take 1).map (·.t)) ++
    (queue s c).items.map (fun it => hdrTime it.ws) ++ (s.flights.filter fun f => f.item.ctx = c).map fun f => hdrTime f.item.ws
  l.max?

/-- A context starts its next key generation at its next block boundary (R363): blocks already begun keep the old key. -/
def startStream (s : State) (c : Nat) : State :=
  match newestPending s c with
  | none => newKeyGen s c
  | some t => setCtx s c { ctx s c with keyDue := some (t + 1) }

/-- `n` fresh random words. -/
def drawWords : Nat → State → List Word × State
  | 0, s => ([], s)
  | n + 1, s =>
    let d := draw s
    let r := drawWords n d.2
    (Config.freeWord d.1 :: r.1, r.2)

/-- At the first power-up, when the hub holds no device key, it generates its key pair (R355); the public key is shown, and
the maker's certificate over it is kept. -/
def firstKey (s : State) : State :=
  if (devKey s).all (· == 0#32) then
    let r := drawWords 24 s
    let s1 := forEach (List.range 24) (fun s k => put s (SEC.DPUB k) (r.1.getD k 0#32).toNat) r.2
    { s1 with sec := { s1.sec with cert := Config.makerCert r.1 (serial s) (get s DEV.ORDC_CODE) } }
  else s

/-- The metrology public key (R172). -/
def metroKey (s : State) : List Word := (List.range 24).map fun k => wd (get s (MTR.MPUB k))

/-- At the first power-up PD_MTR generates the metrology key pair (R159); its public key and the key's identification are shown. -/
def firstMetroKey (s : State) : State :=
  if (metroKey s).all (· == 0#32) then
    let r := drawWords 24 s
    put (forEach (List.range 24) (fun s k => put s (MTR.MPUB k) (r.1.getD k 0#32).toNat) r.2) MTR.MKID_ID
      ((Config.sha384 r.1).getD 0 0#32).toNat
  else s

/-- STREAM: a new secret, shown in staging to the issuing session; a new stream session in every context. -/
def streamSecret (s : State) (src : Src) : State :=
  let r := drawWords 12 s
  let s1 := { r.2 with sec := { r.2.sec with secret := r.1, shown := srcSid src } }
  let s2 := forEach (List.range 12) (fun s k => put s (SEC.STG k) 0) (putB (bumpMod s1 SEC.SGEN_GEN) SEC.OSTAT_NOSS false)
  raise (forEach (List.range 64) startStream s2) pSEC 11

/-! ### Maker mode and return records (R365–R367) -/

/-- The maker certificate goes to staging (R355, R370); a secret shown there goes. -/
def showCert (s : State) : State := putStaged (hideSecret s) s.sec.cert

/-- MKCHAL: a fresh challenge. -/
def makerChallenge (s : State) : State :=
  let r := drawWords 2 s
  let a := (r.1.getD 0 0#32).toNat
  let b := (r.1.getD 1 0#32).toNat
  putStaged (puts { r.2 with sec := { r.2.sec with chal := some (a, b) } } [(SEC.MKCH0_CH, a), (SEC.MKCH1_CH, b)]) r.1

/-- Maker mode is entered (R366). -/
def enterMaker (s : State) : State :=
  let s1 := closeWhere (logEv s pSEC 0x0110 srcHW) fun _ _ => true
  let s2 := { s1 with
    sec := { s1.sec with anchor := [], endorse := [], secret := [], op := none, shown := none }
    ctxs := s1.ctxs.map fun e => (e.1, { e.2 with secret := [], keyDue := none })
    twl := { s1.twl with paired := false, key := [] }
    dom := { s1.dom with recPos := none, recSig := [] } }
  let s3 := reselect (refreshAuth (puts s2 [(DOM.DID_ID, 0), (DOM.AGEN_GEN, 0), (SEC.OSTAT_NOSS, 1), (SEC.OSTAT_MKMD, 1), (DEV.DSTAT_MAKER, 1)]))
  setPState (sealBreak (hwEvent (refreshOwner s3) 6 0 1)) pDEV stTEST

/-- RETREC (R367): the return record, its items in the order R367 lists them (DESIGN CHOICE, log entry 53), goes to staging with the signature
of the device key over it. -/
def returnRec (s : State) : State :=
  let mstat := (viewMTR s 0x54).getD (storedWord s pMTR 0x54)
  let ws := [wd (get s DEV.SERHI_SER), wd (get s DEV.SERLO_SER), wd (get s MTR.EVCNT_CNT), wd (get s SEC.OGEN_GEN), wd mstat] ++
    timeWords (now16 s) (frnNow s) (islNow s) ++ [wd (stg s 0)]
  putStaged s (ws ++ deviceSig ws)

/-- The effect of an accepted SCMD. Any SCMD takes a shown secret from staging (R363). -/
def effScmd (s : State) (src : Src) (w : Word) : State :=
  let s0 := if wbits w 3 0 = 0 then s else hideSecret s
  match wbits w 3 0 with
  | 1 => ownStart s0 (.install (staged s0 1 24))
  | 2 => signed (refreshOwner { s0 with sec := { s0.sec with endorse := staged s0 0 52 } })
  | 3 => ownStart (signed (closeOthers s0 src false)) (.transfer (staged s0 2 24) (stg s0 1))
  | 4 => ownStart (closeOthers s0 src true) .release
  | 5 => streamSecret s0 src
  | 6 => closeSession s0 (wbits w 10 8)
  | 7 => makerChallenge s0
  | 8 => enterMaker (signed s0)
  | 9 => signed (returnRec s0)
  | _ => s0

/-- What a committed burst on page SEC does beyond its fields: a write to staging takes a shown secret away (R363). -/
def afterSEC (s : State) (stage : Bool) : State := if stage then hideSecret s else s

/-- Seconds since a session's last message (R370), saturating. -/
def idleSec (s : State) (x : Session) : Nat := min ((s.cyc - x.last) / cclkHz) 0xFFFF

/-- The path code of SINF. -/
def Path.code : Path → Nat
  | .eth => 0
  | .zlp => 1
  | .svc => 2

/-- SOPEN, SINF and the secret in staging as page SEC shows them to a reader (R363, R370). -/
def viewSEC (s : State) (src : Src) (off : Nat) : Option Nat :=
  if off = 0x54 then some (maskOf ((List.range 8).filter fun i => (session s i).any (·.open_)))
  else if off = 0x5C then
    some (match session s (get s SEC.SSEL_SID) with
      | some x => Role.code x.role * 2 ^ 30 + Path.code x.path * 2 ^ 28 + min x.held.length 64 * 2 ^ 16 + idleSec s x
      | none => 0)
  else if 0x400 ≤ off ∧ off < 0x430 then
    match s.sec.shown with
    | some sid => if srcSid src = some sid then some (s.sec.secret.getD ((off - 0x400) / 4) 0#32).toNat else some 0
    | none => none
  else none

end Sys2Proof.Machine
end

