-- ==== Sys2Proof/Machine/Upd.lean ====
section
/-! DEFINITION. Firmware update over the service port (R372–R386): the update buffer, the checks of a staged container, the resident
loaders, and pages UPD and SVC. -/

namespace Sys2Proof.Machine

/-! ### The staged container (R374, R376) -/

/-- Word `k` of the update buffer. -/
def bufWord (s : State) (k : Nat) : Word := wd (get s (UPD.UWIN_D (k % 256) (k / 256)))

/-- The words of the update buffer: ULEN of them. -/
def bufWords (s : State) : List Word := (List.range (get s UPD.ULEN_N)).map (bufWord s)

/-- Header fields of a container by its words H0–H3. -/
def wType (h : Nat → Word) : Nat := wbits (h 0) 15 8
def wVer (h : Nat → Word) : Nat := (h 1).toNat
def wPlv (h : Nat → Word) : Nat := wbits (h 2) 31 24
def wRlv (h : Nat → Word) : Nat := wbits (h 2) 23 16
def wApr (h : Nat → Word) : Bool := bit (h 2).toNat 1
def wOcs (h : Nat → Word) : Bool := bit (h 2).toNat 0
def wLen (h : Nat → Word) : Nat := (h 3).toNat

/-- The staged container's. -/
def ctType (s : State) : Nat := wType (bufWord s)
def ctVer (s : State) : Nat := wVer (bufWord s)
def ctPlv (s : State) : Nat := wPlv (bufWord s)
def ctRlv (s : State) : Nat := wRlv (bufWord s)
def ctApr (s : State) : Bool := wApr (bufWord s)
def ctOcs (s : State) : Bool := wOcs (bufWord s)
def ctLen (s : State) : Nat := wLen (bufWord s)

/-- The largest container of a region, words (R376). -/
def regionWords (p : Nat) : Nat := if p = 0 then 1048576 else 262144

/-- The words of the whole container: header, ciphertext, tag, signature, and the parts H2 names. -/
def ctWords (s : State) : Nat :=
  64 + ctLen s + 4 + 24 + (if ctOcs s then 24 else 0) + (if ctApr s then 74 else 0)

/-- Check 1 of R378: H0, the reserved words, the length and the target's region; an approval belongs to TYPE 1 alone, its certificate has
format 0x0006_0000, and RLV is PLV or PLV − 1 (R374; DEDUCED, log entry 124). -/
def ctFormat (s : State) : Bool :=
  let h0 := bufWord s 0
  let u := get s UPD.ULEN_N
  wbits h0 31 24 = 0xE7 && wbits h0 23 16 = 1 && decide (ctType s ≤ 3) && wbits h0 7 0 = 0 && wbits (bufWord s 2) 15 2 = 0 &&
    ((List.range 11).all fun i => bufWord s (53 + i) = 0#32) && ctWords s = u && decide (u ≤ regionWords (ctType s)) &&
    (ctRlv s = ctPlv s || ctRlv s + 1 = ctPlv s) &&
    (!ctApr s || (ctType s = 1 && bufWord s (ctWords s - 74) = 0x60000#32 && bufWord s (ctWords s - 25) = 0#32))

/-! ### What protects a container (R375) -/

/-- `n` words of a container from word `a`. -/
def part (w : List Word) (a n : Nat) : List Word := exactly n (w.drop a)

/-- CLEN of a container. -/
def clen (w : List Word) : Nat := wLen fun k => w.getD k 0#32

/-- What the maker and the owner sign: H0–H63, the ciphertext and the GCM tag. -/
def signedPart (w : List Word) : List Word := w.take (64 + clen w + 4)

/-- Whether the maker's signature verifies. -/
def makerOk (w : List Word) (f : CheckFacts) : Bool := f.sigs.contains ⟨.maker, signedPart w, part w (68 + clen w) 24⟩

/-- Whether the owner co-signature verifies, which needs an owner trust anchor. -/
def cosigOk (s : State) (w : List Word) (f : CheckFacts) : Bool :=
  !s.sec.anchor.isEmpty && f.sigs.contains ⟨.key s.sec.anchor, signedPart w, part w (92 + clen w) 24⟩

/-- Where the approval certificate stands. -/
def aprAt (w : List Word) : Nat := 92 + clen w + if wOcs (fun k => w.getD k 0#32) then 24 else 0

/-- Whether the approval certificate and the approval signature, over H0–H2 and H41–H52, verify. -/
def aprOk (w : List Word) (f : CheckFacts) : Bool :=
  let a := aprAt w
  f.sigs.contains ⟨.maker, part w a 25, part w (a + 25) 24⟩ &&
    f.sigs.contains ⟨.key (part w (a + 1) 24), part w 0 3 ++ part w 41 12, part w (a + 50) 24⟩

/-- The bytes of "GL768-IMAGE". -/
def imageInfo : List Nat := [71, 76, 55, 54, 56, 45, 73, 77, 65, 71, 69]

/-- The plaintext image: the key unwraps by this hub's device key and serial number, and the ciphertext and tag open with nonce H4–H6 and
H0–H3 as additional data. -/
def plainOf (s : State) (w : List Word) (f : CheckFacts) : Option (List Word) :=
  (f.opens.find? fun o =>
    o.device = devKey s && o.eph = part w 7 24 && o.salt = [wd (get s DEV.SERHI_SER), wd (get s DEV.SERLO_SER)] && o.info = imageInfo &&
      o.wrapped = part w 31 10 && o.nonce = part w 4 3 && o.aad = part w 0 4 && o.cipher = part w 64 (clen w) &&
      o.tag = part w (64 + clen w) 4).map (·.plain)

/-- Whether the image's digest equals H41–H52. -/
def digOk (s : State) (w : List Word) (f : CheckFacts) : Bool :=
  (plainOf s w f).any fun p => f.digs.contains ⟨p, part w 41 12⟩

/-- The interface levels (R379): processors are ordered 3, 2, 1, 0. -/
def levelsOk (s : State) : Bool :=
  let p := ctType s
  let l := ctPlv s
  let own := get s (UPD.ILVL_PLV p)
  ((List.range 4).filter (· != p)).all fun q =>
    let v := get s (UPD.ILVL_PLV q)
    decide (l ≤ v + 1) && decide (v ≤ l + 1) && decide (ctRlv s ≤ v) && decide (get s (UPD.ILVL_RLV q) ≤ l) &&
      (!(decide (own < l) && decide (p < q)) || v = l) && (!(decide (l < own) && decide (q < p)) || v = l)

/-- The seal policy (R381). -/
def sealPolicy (s : State) : Bool :=
  !(ctType s = 1 && !ctApr s && pstate s pMTR = stSEALED) || flag s UPD.UPOL_BRKOK

/-- The co-signature is asked for (R378, check 5). -/
def ocsNeeded (s : State) : Bool := flag s UPD.UPOL_OCSREQ || decide (ctVer s < get s (UPD.IVER_VER (ctType s)))

/-- The first failing check of R378, 0 if none fails. -/
def checkErr (s : State) (f : CheckFacts) : Nat :=
  let w := bufWords s
  if !ctFormat s then 1
  else if !makerOk w f then 2
  else if (plainOf s w f).isNone then 3
  else if !digOk s w f then 4
  else if (ctOcs s && !cosigOk s w f) || (ocsNeeded s && !ctOcs s) then 5
  else if ctApr s && !aprOk w f then 6
  else if !levelsOk s then 7
  else if !sealPolicy s then 8
  else 0

/-- Segments of the buffer. -/
def segCount (s : State) : Nat := (get s UPD.ULEN_N + 255) / 256

/-- Whether a segment is written in full: 256 words, or the rest of ULEN in the last one. -/
def segFull (s : State) (e : Nat × Nat) : Bool :=
  let n := min 256 (get s UPD.ULEN_N - 256 * e.1)
  n != 0 && e.2 % 2 ^ n = 2 ^ n - 1

/-- Segments written in full at least once. -/
def segsDone (s : State) : Nat := (s.upd.segs.filter (segFull s)).length

/-- The progress of LOADING is shown again after a failed CHECK (R378, R385), without a new PDONE (DEDUCED: no operation ends). -/
def loadProgress (s : State) : State :=
  let n := segCount s
  puts s [(hLIM pUPD, n), (hPOS pUPD, segsDone s), (hPCT pUPD, if n = 0 then 100 else 100 * segsDone s / n)]

/-- CHECK_DONE (R378): the checks end; after a failure the buffer is in LOADING with its progress. -/
def execCheckDone (facts : CheckFacts) (s : State) : Host.Outcome State Fault Refusal :=
  if !s.upd.checking then .next s
  else
    let e := checkErr s facts
    let s1 := put (setBusy { s with upd := { s.upd with checking := false } } pUPD false) UPD.USTAT_ERR e
    .next (if e = 0 then raise (puts s1 [(UPD.USTAT_STAGE, 2), (UPD.UVER_VER, ctVer s)]) pUPD 8 else raise (loadProgress s1) pUPD 9)

/-! ### Commands and page UPD (R373, R377, R380, R385) -/

/-- Whether a source holds the buffer. -/
def holds (s : State) (src : Src) : Bool := flag s UPD.USTAT_HELD && srcSid src = some (get s UPD.USTAT_SID)

/-- Whether the loaders let the target be installed (R380): its own runs or waits, every other runs; MTP without power takes no image (DESIGN
CHOICE, log entry 129). -/
def loadersOk (s : State) : Bool :=
  ((List.range 4).all fun q => loader s q = ldRUNNING || (q = ctType s && loader s q = ldWAIT)) && (ctType s != 1 || domainOn s 2)

/-- The reasons a UCMD is rejected. -/
def violUcmd (s : State) (src : Src) (off : Nat) (w : Word) : List Viol :=
  let stage := get s UPD.USTAT_STAGE
  let busy := flag s (hBUSY pUPD)
  match wbits w 3 0 with
  | 0 => []
  | 1 => viol (busy || (flag s UPD.USTAT_HELD && !holds s src)) .busy off
  | 2 => viol (stage != 1) .state off ++ viol (busy || !holds s src) .busy off
  | 3 => viol (stage != 2 || !levelsOk s || !loadersOk s) .state off ++ viol (!sealPolicy s) .locked off ++
      viol (busy || !holds s src) .busy off
  | 4 => []
  | _ => [(.range, off)]

/-- The reasons a word of page UPD is rejected beyond the fields' own legal sets; `op` is the UCMD of the same burst. -/
def violUPD (s img : State) (src : Src) (op off : Nat) (w : Word) : List Viol :=
  viol (!onService s src) .auth off ++
  (if off = 8 then viol (!flag img (hENABLE pUPD)) .state off
  else if off = 0x40 then violUcmd s src off w
  else if off = 0x48 then viol (chg s img UPD.ULEN_N && op != 1) .state off
  else if off = 0x4C then viol (decide (segCount img ≤ get img UPD.UBASE_SEG)) .size off
  else if off = 0x50 then
    viol ((chg s img UPD.UPOL_BRKOK || chg s img UPD.UPOL_OCSREQ) && !(srcRole s src = some .owner)) .auth off
  else if 0x400 ≤ off ∧ off < 0x800 then
    let c := chg s img (UPD.UWIN_D ((off - 0x400) / 4) (get img UPD.UBASE_SEG))
    viol (c && get s UPD.USTAT_STAGE != 1) .state off ++ viol (c && (flag s (hBUSY pUPD) || !holds s src)) .busy off
  else [])

/-- INSTALL (R380): the container goes to the target's loader, whose processor stops. -/
def startInstall (s : State) : State :=
  let p := ctType s
  let s1 := { s with upd := { s.upd with target := some p, tries := 1, cont := bufWords s }
                     flash := { s.flash with regions := tset s.flash.regions p false true } }
  let s2 := setLoader (procStop (put s1 UPD.USTAT_STAGE 3) p true) p ldERASE
  if p = 0 then s2 else progStart s2 pUPD ((get s UPD.ULEN_N + 1023) / 1024)

/-- The effect of an accepted UCMD. -/
def effUcmd (s : State) (src : Src) (w : Word) : State :=
  match wbits w 3 0 with
  | 1 =>
    let s1 := puts (releaseBuffer s) [(UPD.USTAT_STAGE, 1), (UPD.USTAT_HELD, 1), (UPD.USTAT_SID, (srcSid src).getD 0), (UPD.USTAT_ERR, 0)]
    progStart (setPState s1 pUPD stRUN) pUPD (segCount s1)
  | 2 => progUnknown (setBusy { s with upd := { s.upd with checking := true } } pUPD true) pUPD
  | 3 => startInstall s
  | 4 => releaseBuffer s
  | _ => s

/-- What a committed burst does to the buffer's bookkeeping: words written, progress, and what USTAT.TYPE and ULVL show of the staged
header (R385). -/
def afterUPD (s : State) (offs : List Nat) : State :=
  let ks := (offs.filter fun o => 0x400 ≤ o && o < 0x800).map fun o => (o - 0x400) / 4
  if ks.isEmpty ∨ get s UPD.USTAT_STAGE ≠ 1 ∨ flag s (hBUSY pUPD) then s
  else
    let g := get s UPD.UBASE_SEG
    let s1 := { s with upd := { s.upd with segs := tset s.upd.segs g (tget s.upd.segs g 0 ||| maskOf ks) 0 } }
    let s2 := puts s1 [(UPD.USTAT_TYPE, ctType s1), (UPD.ULVL_PLV, ctPlv s1), (UPD.ULVL_RLV, ctRlv s1)]
    if segsDone s2 = get s2 (hPOS pUPD) then s2 else progAt s2 pUPD (segsDone s2)

/-! ### Loaders (R380) -/

/-- A loader's step from one state to the next. -/
def loaderStep (s : State) (p a b : Nat) (f : State → State) : Host.Outcome State Fault Refusal :=
  if 4 ≤ p then .fault .noSuchUnit
  else if loader s p = a then .next (f (setLoader s p b)) else .next s

/-- REGION_ERASED (R380). -/
def execRegionErased (p : Nat) (s : State) : Host.Outcome State Fault Refusal := loaderStep s p ldERASE ldWRITE id

/-- CONTAINER_WRITTEN (R375, R380): the region holds the container unchanged, and progress reaches its end (R385). -/
def execContainerWritten (p : Nat) (s : State) : Host.Outcome State Fault Refusal :=
  loaderStep s p ldWRITE ldREADBACK fun s =>
    let s1 := { s with flash := { s.flash with regions := tset s.flash.regions p true true, images := tset s.flash.images p s.upd.cont [] } }
    if p = 0 then s1 else progDone s1 pUPD

/-- The result of an INSTALL is raised once MGP runs. -/
def raiseResult (s : State) (ev : Nat) : State :=
  if mgpRuns s then raise s pUPD ev else { s with upd := { s.upd with owed := some ev } }

/-- An INSTALL ends with a result (R380): ULAST, and the buffer is back in CHECKED while a session holds it. -/
def endInstall (s : State) (p err : Nat) : State :=
  let s1 := puts { s with upd := { s.upd with target := none, cont := [] } } [(UPD.ULAST_PROC, p), (UPD.ULAST_ERR, err)]
  let s2 := if get s1 UPD.USTAT_STAGE = 3 then puts s1 [(UPD.USTAT_STAGE, 2), (UPD.USTAT_ERR, err)] else s1
  raiseResult s2 (if err = 0 then 10 else 11)

/-- READBACK (R380): the region equals the buffer, or a second attempt, or WAIT with ERR 9. -/
def execReadback (p : Nat) (good : Bool) (s : State) : Host.Outcome State Fault Refusal :=
  if 4 ≤ p then .fault .noSuchUnit
  else if loader s p ≠ ldREADBACK then .next s
  else if good then .next (setLoader s p ldBOOT)
  else
    let s1 := { s with flash := { s.flash with regions := tset s.flash.regions p false true } }
    if s.upd.tries < 2 then .next (setLoader { s1 with upd := { s1.upd with tries := 2 } } p ldERASE)
    else .next (endInstall (setLoader s1 p ldWAIT) p 9)

/-- SWDIG as it stands (R168, R381). -/
def swdig (s : State) : List Word := (List.range 12).map fun k => wd (get s (MTR.SWDIG k))

/-- The word SWVER. -/
def swver (s : State) : Nat := regWord s pMTR 0xB4 0

/-- The container a processor's region holds; none while it holds the image the hub left the factory with. -/
def regionHeld (s : State) (p : Nat) : Option (List Word) :=
  match tget s.flash.images p [] with
  | [] => none
  | w => some w

/-- Whether the checks of BOOT pass (R380): maker's signature, tag and digest; of the factory's image, as found. -/
def bootOk (s : State) (p : Nat) (f : BootFacts) : Bool :=
  match regionHeld s p with
  | none => f.factory
  | some w => makerOk w f.found && digOk s w f.found

/-- The digest of the image a processor boots: H41–H52 of its container, or that found of the factory's image. -/
def bootDig (s : State) (p : Nat) (found : List Word) : List Word := ((regionHeld s p).map fun w => part w 41 12).getD (exactly 12 found)

/-- Whether the image of MTP carries an approval (R168, R381). -/
def mtpApproved (s : State) : Bool := (regionHeld s 1).any fun w => wApr fun k => w.getD k 0#32

/-- BOOT of MTP on an image whose digest differs from SWDIG (R166, R169, R381): the event, a break if the image is not approved, and
the new SWDIG. -/
def mtpImage (s : State) (d : List Word) : State :=
  if d = swdig s then s
  else
    let new := get s (UPD.IVER_VER 1)
    let s1 := puts s [(MTR.SWVER_MAJ, new / 2 ^ 24), (MTR.SWVER_MIN, new / 2 ^ 16), (MTR.SWVER_BLD, new)]
    let s2 := putB (hwEvent s1 4 (swver s) new) MTR.MSTAT_APPR (mtpApproved s)
    let s3 := if mtpApproved s then s2 else sealBreak s2
    forEach (List.range 12) (fun s k => put s (MTR.SWDIG k) (d.getD k 0#32).toNat) s3

/-- A loader's checks pass and its processor runs (R380): the version and levels of its container, the MTP image, and what waited for the
processor (R165, R352, R380). -/
def procRuns (s : State) (p : Nat) (dig : List Word) : State :=
  let s1 := setLoader s p ldRUNNING
  let s2 := match regionHeld s p with
    | none => s1
    | some w =>
      let h (k : Nat) : Word := w.getD k 0#32
      puts s1 [(UPD.IVER_VER p, wVer h), (UPD.ILVL_PLV p, wPlv h), (UPD.ILVL_RLV p, wRlv h)]
  let s3 := if p = 1 then forEach (List.range 64) tryMk (mtpImage s2 (bootDig s 1 dig)) else s2
  let s4 := if s.upd.target = some p then endInstall s3 p 0 else s3
  if p = 0 then
    match s4.upd.owed with
    | some ev => raise { (drainFifo s4) with upd := { s4.upd with owed := none } } pUPD ev
    | none => drainFifo s4
  else s4

/-- An INSTALL that has failed in a way the spec gives no result for: ULAST shows a free one. -/
def failInstall (s : State) (p : Nat) : State :=
  if s.upd.target = some p then
    let d := draw s
    endInstall d.2 p (1 + (Config.freeWord d.1).toNat % 15)
  else s

/-- A loader's checks fail: it waits, which is logged (R380). -/
def bootFails (s : State) (p : Nat) : State := failInstall (logEv (setLoader s p ldWAIT) pUPD Config.codeBoot.toNat srcHW) p

/-! ### Page SVC (R372, R386) -/

/-- ATTACH (R372): VBUS is present. -/
def execAttach (hs : Bool) (s : State) : Host.Outcome State Fault Refusal :=
  if pstate s pSVC = stOFF then .next s
  else .next (raise (putB (putB s SVC.SVST_VBUS true) SVC.SVST_HS hs) pSVC 8)

/-- The host has configured the device, or no longer. -/
def setConf (s : State) (on : Bool) : State :=
  setPState (putB s SVC.SVST_CONF on) pSVC (if on then stRUN else stIDLE)

/-- DETACH (R372): every session opened on the port closes, whatever page SVC is in. -/
def execDetach (s : State) : Host.Outcome State Fault Refusal :=
  let s1 := closeWhere s fun _ x => x.path = .svc
  if pstate s pSVC = stOFF then .next s1
  else .next (raise (setConf (putB (putB s1 SVC.SVST_VBUS false) SVC.SVST_HS false) false) pSVC 9)

/-- HOST_CONFIGURED (R386). -/
def execHostConfigured (on : Bool) (s : State) : Host.Outcome State Fault Refusal :=
  if pstate s pSVC = stOFF ∨ !flag s SVC.SVST_VBUS then .next s else .next (setConf s on)

/-- The reasons a word of page SVC is rejected: ENABLE is not cleared from the port itself (R386). -/
def violSVC (s img : State) (src : Src) (off : Nat) : List Viol :=
  if off = 8 then viol (chg s img (hENABLE pSVC) && onService s src) .state off else []

end Sys2Proof.Machine
end

