-- ==== Sys2Proof/Machine/Reset.lean ====
section
/-! DEFINITION. Resets of blocks and power domains (R36, R38, R396–R399): what survives, what each block's reset leaves behind its
registers, and what entering or leaving OFF does. -/

namespace Sys2Proof.Machine

/-! ### What survives (R39, R184, R399) -/

/-- The offsets whose registers hold fused, image and flash contents or state kept in PD_AON: they keep their values through a block
reset and through power (the reset column's Fused, Image and Stored; CKGEN because R187 never uses a nonce twice). -/
def storedOff (page off : Nat) : Bool :=
  if page = pDEV then decide (0x48 ≤ off) && decide (off < 0x5C)
  else if page = pPWR then off = 0x50 || off = 0x58 || off = 0x68 || off = 0x6C || off = 0x70
  else if page = pMTR then off = 0x54 || off = 0x58 || (decide (0x84 ≤ off) && decide (off < 0x160) && off != 0xEC)
  else if page = pSTM then off = 0x50 || off = 0x54
  else if page = pETH then off = 0x48 || off = 0x4C
  else if page = pDOM then off = 0x40 || off = 0x44 || off = 0x48
  else if page = pMGT then decide (0xE4 ≤ off) && decide (off < 0xFC)
  else if page = pSEC then (decide (0x44 ≤ off) && decide (off < 0x54)) || (decide (0x100 ≤ off) && decide (off < 0x160))
  else if page = pUPD then decide (0x60 ≤ off) && decide (off < 0x80)
  else if page = pSVC then off = 0x44
  else false

/-- MSTAT after a reset: FCAUSE, NDES and TWMIS clear; APPR, BRK, EVS, LIDO and SEALN stand (R168, R169, R172). -/
def clearMstat (s : State) : State := puts s [(MTR.MSTAT_FCAUSE, 0), (MTR.MSTAT_NDES, 0), (MTR.MSTAT_TWMIS, 0)]

/-- The role after power-up (R346): the unit's strap decides. -/
def strapRole (s : State) : Nat := if s.twl.strap = 0 then rSINGLE else rPAIRING

/-- The fields that show the strap (R302, R350). -/
def showStrap (s : State) : State :=
  puts s [(TWL.TROLE_UNIT, s.twl.strap), (DOM.DPOS_UNIT, s.twl.strap), (TWL.TROLE_ROLE, strapRole s)]

/-! ### Behind the registers (R36) -/

/-- The channels of a bank return to their reset state. -/
def resetChans (s : State) (n : Nat) : State := forEach (List.range 16) (fun s k => setChan s (16 * n + k) {}) s

/-- A bank returns to its reset state: inputs open, quads off. -/
def resetBank (s : State) (n : Nat) : State :=
  refreshFlt (refreshDrive (noteCond (resetChans (setBank s n { checking := (bank s n).checking, conds := (bank s n).conds }) n) n))

/-- A context keeps what PD_AON and the stream chain hold of it; its open and closed blocks go. -/
def resetCtx (s : State) (c : Nat) : State :=
  let x := ctx s c
  setCtx s c { x with cur := [], closed := [], cmd := 0, leaving := false, w5 := 0, restart := true, hist := [], comp := 0, nch := 0 }

/-- What the reset of a page's block does behind its registers. Where R65 is silent: a reset of SCH keeps the axis origins already laid
(ZSEEN, and what MCYC and ETRN count from), and contexts that were ARMED for a committed shadow stay ARMED (DESIGN CHOICE, log entry
107). -/
def resetBehind (s : State) (page : Nat) : State :=
  match bankOfPage page with
  | some n => resetBank s n
  | none =>
    if page = pOPT then resetBank { s with ports := [], boostUp := true, optK := 10 ^ 30, optM := 10 ^ 30 } 48
    else if page = pFLT then refreshFlt { s with cnv := { s.cnv with ringFirst := none, ringLast := none } }
    else if page = pLIN then linLoad { s with pwr := { s.pwr with linOp := 0 } }
    else if page = pMTR then clearMstat { s with mtr := { s.mtr with op := none, verify := none } }
    else if page = pSCH then { s with sch := { armedOnce := s.sch.armedOnce } }
    else if page = pAXS then ppsLost (refreshAxs { s with axs := { encA := s.axs.encA, encB := s.axs.encB } })
    else if page = pSTM then forEach (List.range 64) (fun s c => resetCtx (endFaultGap s c) c) s
    else if page = pQUE then queReset s
    else if page = pCDC then cdcReset s
    else if page = pCNV then cnvLoss s
    else if page = pTSU then loadCorr { s with tsu := { setMade := s.tsu.setMade, stepDone := s.tsu.stepDone } }
    else if page = pTKE then dropPass (setLink s 0 { st := (link s 0).st, pass := (link s 0).pass }) 0
    else if page = pTKW then dropPass (setLink s 1 { st := (link s 1).st, pass := (link s 1).pass }) 1
    else if page = pDOM then reselect (refreshAuth { s with dom := { recPos := s.dom.recPos, recSig := s.dom.recSig } })
    else if page = pTWL then
      let s1 := showStrap { s with twl := { strap := s.twl.strap, pdig := s.twl.pdig } }
      driveAll (roleOptics false (reselect (refreshAuth (if s1.twl.strap = 0 then setLink s1 2 {} else startBringup s1 2))))
    else if page = pUPD then releaseBuffer s
    else s

/-! ### Entering and leaving OFF (R38) -/

/-- A page has left OFF for IDLE, or a reset has left it in IDLE. -/
def onIdle (s : State) (page : Nat) : State :=
  if page = pTKE then portIdle s 0
  else if page = pTKW then portIdle s 1
  else if page = pCDC then enginesOn s
  else if page = pTSU then reselect s
  else if page = pTWL then refreshTwl s
  else if page = pDOM then refreshDom s
  else if page = pCNV then refreshStream s
  else if page = pQUE then refreshStream s
  else if page = pSTM then refreshStream s
  else if page = pAXS then refreshAxs s
  else if page = pEXC then refreshDrive s
  else refreshFlt s

/-- A page has entered OFF. -/
def onOff (s : State) (page : Nat) : State :=
  if page = pTSU then tsuOff s
  else if page = pCDC then enginesOff s
  else if page = pAXS then { s with axs := { s.axs with trgOut := 0 } }
  else s

/-- PCTL.ENABLE takes effect (R38): OFF to IDLE, or IDLE to OFF; TWL in ISOLATED leaves RUN (R349). -/
def enableTo (s : State) (page : Nat) (on : Bool) : State :=
  if on ∧ pstate s page = stOFF then onIdle (setPState s page stIDLE) page
  else if !on ∧ (pstate s page = stIDLE ∨ (page = pTWL ∧ pstate s page = stRUN)) then onOff (setPState s page stOFF) page
  else s

/-- SOFT_RESET (R36): block registers and block to their reset values, PEVT clears, IDLE or OFF by ENABLE. QUE in FAULT keeps
QCFG (R211); a reset of ETH that changes MODE, DOM or TRANS does what that change does (R268, R278). -/
def softReset (s : State) (page : Nat) : State :=
  let s1 := clearRegs s fun p off => p = page && (decide (0x40 ≤ off) && !storedOff p off && !(p = pQUE && off = 0x44 && pstate s pQUE = stFAULT))
  let s3 := resetBehind (put s1 (hPEVT page) 0) page
  let s2 := setBusy s3 page (match bankOf page with
    | some n => (bank s3 n).checking
    | none => false)
  let s4 := if flag s2 (hENABLE page) then onIdle (setPState s2 page stIDLE) page else onOff (setPState s2 page stOFF) page
  if page = pQUE then endFaultGaps s4 else if page = pETH then afterETH s s4 else s4

/-! ### Power domains (R396, R397) -/

/-- Every register of the pages to its reset value, but for what is stored. -/
def powerClear (s : State) (pages : List Nat) : State := clearRegs s fun p off => pages.contains p && !storedOff p off

/-- The pages that go with a power domain: its own, and DOM with the second of the two trunk ports. -/
def offPages (s : State) (d : Nat) : List Nat :=
  domainPages d ++ (if (d = 14 ∧ !domainOn s 15) ∨ (d = 15 ∧ !domainOn s 14) then [pDOM] else [])

/-- A power domain is switched off (R397): its pages stop; its blocks are at reset, and with PD_MTR MTP is off (R351, R369). -/
def domainOff (s : State) (d : Nat) : State :=
  let pages := offPages s d
  let s1 := if d = 14 then linkLeave s 0 stOFF else if d = 15 then linkLeave s 1 stOFF else s
  let s2 := putBit (powerClear s1 pages) PWR.PDST_PG d false
  let s3 := forEach pages resetBehind s2
  let s4 := if d = 16 then { setLink s3 2 {} with time := {} } else s3
  let s5 := if d = 12 then enginesOff s4 else if d = 2 then failInstall (mtpOff { s4 with mtr := { s4.mtr with loadDue := false } }) 1 else s4
  pages.foldl (fun s p => put s (hSTATE p) stOFF) s5

/-- A bank's domain powers up (R125): the self-check of its modulators begins. -/
def checkStart (s : State) (n : Nat) : State := setBusy (setBank s n { bank s n with checking := true }) (bankPage n) true

/-- PD_MTR is up: MTP's loader begins BOOT, and MTR's record is loaded at its end; without an image it waits (R380, R384). -/
def mtpPowerUp (s : State) : State :=
  if tget s.flash.regions 1 true then setLoader { s with mtr := { s.mtr with loadDue := true } } 1 ldBOOT else mtrPowerUp (setLoader s 1 ldWAIT)

/-- A power domain reaches power good (R397): its pages answer in their reset states; AFE domains and PD_OPT begin the self-check
(R125), the filters' chains are at reset (R134), MTP boots and MTR loads its record (R170, R380), ports and the twin link begin bring-up
(R285). -/
def domainUp (s : State) (d : Nat) : State :=
  let pages := offPages s d
  let s1 := putBit (powerClear s pages) PWR.PDST_PG d true
  let s2 := forEach pages resetBehind s1
  let s3 := if (3 ≤ d ∧ d ≤ 8) ∨ d = 10 then forEach (domainBanks d) checkStart s2 else s2
  let s4 := if d = 2 then mtpPowerUp s3 else if d = 11 then resetChains s3 else s3
  let s5 := (pages.filter fun p => pstate s4 p = stIDLE).foldl onIdle s4
  if d = 14 then putB s5 CLK.PLLST_TKE true
  else if d = 15 then putB s5 CLK.PLLST_TKW true
  else if d = 16 then putB (putB { s5 with time := {} } CLK.PLLST_TWN (s5.twl.strap != 0)) CLK.PLLST_ETH true
  else if d = 13 then putB s5 CLK.PLLST_DRAM true
  else s5

end Sys2Proof.Machine
end

