-- ==== Sys2Proof/Machine/Pwr.lean ====
section
/-! DEFINITION. Trunk power, resets, the start-up configuration and start-up (R387–R407), with pages PWR and CLK. -/

namespace Sys2Proof.Machine

/-! ### Supply levels (R391, R392) -/

/-- Whether the mean of the last samples of V_IN lies below `x` (10 mV); without samples it does not. -/
def meanBelow (s : State) (x : Nat) : Bool := !s.pwr.vin.isEmpty && decide (s.pwr.vin.sum < x * s.pwr.vin.length)

/-- The thresholds in 10 mV. -/
def sag1 (s : State) : Nat := 10 * get s PWR.SAGL_SAG1
def sag2 (s : State) : Nat := 10 * get s PWR.SAGL_SAG2

/-- The level falls with the mean: to SAG2 from any level, to SAG1 from NORMAL. -/
def judgeLevel (s : State) : State :=
  let l := get s PWR.SLVL_LEVEL
  if meanBelow s (sag2 s) then
    if l < 2 then raise (bumpSat (put s PWR.SLVL_LEVEL 2) PWR.SAGCNT_N2) pPWR 9 else s
  else if meanBelow s (sag1 s) ∧ l = 0 then raise (bumpSat (put s PWR.SLVL_LEVEL 1) PWR.SAGCNT_N1) pPWR 8
  else s

/-- SUPPLY_SAMPLE (R391): every 10 µs the monitor samples V_IN (10 mV) and the intake current, and judges the mean of 4 samples. -/
def execSupplySample (v i : Nat) (s : State) : Host.Outcome State Fault Refusal :=
  let s1 := puts { s with pwr := { s.pwr with vin := (v :: s.pwr.vin).take 4 } } [(PWR.VIN_V, v), (PWR.VIN_I, i)]
  .next (if s1.pwr.lock then s1 else relimit (judgeLevel s1))

/-- LEVEL_STEP_UP (R391): V_IN has stayed 1.0 V above the level's entry point for 10 ms, and the level is left by one step. -/
def execLevelStepUp (s : State) : Host.Outcome State Fault Refusal :=
  let l := get s PWR.SLVL_LEVEL
  if l = 0 ∨ s.pwr.lock ∨ meanBelow s ((if l = 2 then sag2 s else sag1 s) + 100) then .next s
  else
    let s1 := put s PWR.SLVL_LEVEL (l - 1)
    .next (relimit (if l = 1 then raise s1 pPWR 10 else s1))

/-- XCHG (R392, R407): XCLK takes the slower of the level's clock and XFORCE. -/
def execXchg (s : State) : Host.Outcome State Fault Refusal :=
  let d := max (get s PWR.SLVL_LEVEL) (get s CLK.XFORCE_MIN)
  if get s CLK.XSTAT_XDIV = d then .next s else .next (raise (bumpSat (put s CLK.XSTAT_XDIV d) CLK.XCNT_N) pCLK 8)

/-! ### Ports and pass-through (R388–R390) -/

/-- The direction pass-through would run in now: 1 east to west, 2 west to east, 0 none. -/
def ptDir (s : State) : Nat :=
  let e := flag s (PWR.PORTST_PRES 0)
  let w := flag s (PWR.PORTST_PRES 1)
  let src := get s PWR.PTCFG_SRC
  if !flag s PWR.PTCFG_EN ∨ s.pwr.lock then 0
  else if e ∧ !w ∧ src ≠ 2 then 1
  else if w ∧ !e ∧ src ≠ 1 then 2
  else 0

/-- The pass-through switch opens where its direction no longer holds. -/
def ptCheck (s : State) : State := if get s PWR.PTST_DIR ≠ ptDir s then puts s [(PWR.PTST_DIR, 0), (PWR.PTST_DETOK, 0)] else s

/-- PORTCHG (R388): a port rises above or falls below 30.0 V; above it, inrush begins. -/
def execPortchg (p : Nat) (above : Bool) (s : State) : Host.Outcome State Fault Refusal :=
  if 2 ≤ p then .fault .noSuchUnit
  else if flag s (PWR.PORTST_PRES p) = above then .next s
  else
    let s1 := putB (putB s (PWR.PORTST_PRES p) above) (PWR.PORTST_INR p) above
    .next (raise (ptCheck (if above then s1 else putB s1 (PWR.PORTST_ILIM p) false)) pPWR 12)

/-- INRUSH_END (R388): after 50 ms the 2.0 A limit applies. -/
def execInrushEnd (p : Nat) (s : State) : Host.Outcome State Fault Refusal :=
  if 2 ≤ p then .fault .noSuchUnit else .next (putB s (PWR.PORTST_INR p) false)

/-- PTOC (R390): above 4.0 A the switch opens. -/
def execPtoc (s : State) : Host.Outcome State Fault Refusal :=
  if get s PWR.PTST_DIR = 0 then .next s
  else .next (raise (puts s [(PWR.PTST_DIR, 0), (PWR.PTST_DETOK, 0), (PWR.PTST_OC, 1)]) pPWR 11)

/-- PT_PROBE (R390): the far port's signature is measured; 23.75–26.25 kΩ closes the switch. -/
def execPtProbe (ohms : Nat) (s : State) : Host.Outcome State Fault Refusal :=
  let d := ptDir s
  if d = 0 ∨ get s PWR.PTST_DIR ≠ 0 then .next s
  else if 23750 ≤ ohms ∧ ohms ≤ 26250 then .next (puts s [(PWR.PTST_DETOK, 1), (PWR.PTST_OC, 0), (PWR.PTST_DIR, d)])
  else .next (put s PWR.PTST_DETOK 0)

/-! ### PG_N (R400) -/

/-- PG_N is driven low while V_IN is above 38.0 V and every domain of PDEN holds power good. -/
def refreshPg (s : State) : State :=
  let on := get s PWR.PDEN_EN * 4 + 3
  { s with pwr := { s.pwr with pgN := !s.pwr.lock && (on &&& get s PWR.PDST_PG) = on } }

/-! ### The start-up configuration (R401, R402) -/

/-- The registers of the start-up configuration: the mirrored ones but for LIN's sets, which keep their own storage, and those R401
lists; and PCTL.ENABLE of every page, without which no slot could open after start-up (DEDUCED from R404). -/
def inConfig (page off : Nat) : Bool :=
  (mirrored page off && !(page = pLIN && isSetOff off)) || off = 8 ||
  (if page = pQUE then off = 0x44 || off = 0x48 || off = 0x4C || off = 0x80
  else if page = pCDC then decide (0x4C ≤ off) && decide (off < 0x5C)
  else if page = pCNV then off = 0x48 || off = 0x50
  else if page = pTSU then off = 0x40 || off = 0x78 || off = 0x7C || off = 0x90 || off = 0x94 || off = 0x9C || off = 0xA0 || off = 0xA4 ||
    off = 0xA8 || off = 0xB4
  else if page = pETH then decide (0x40 ≤ off)
  else if page = pDOM then off = 0x58 || off = 0x78 || off = 0x7C
  else if page = pPWR then off = 0x44 || off = 0x4C || off = 0x54 || off = 0x60
  else false)

/-- Whether an entry of the register file is a writable field of the start-up configuration. PCTL.LOCK is none. -/
def configCode (code : Nat) : Bool :=
  let page := codePage code
  let off := codeOff code
  inConfig page off && (if off = 8 then code % 32 = 0 else
    match regAt page off with
    | none => false
    | some r => r.fields.any fun f => f.lo = code % 32 && (f.ty = .rw || f.ty = .rwl || f.ty = .rwe))

/-- SUCMD_SAVE_DONE (R401): the start-up configuration is in flash. -/
def execSucmdSaveDone (s : State) : Host.Outcome State Fault Refusal :=
  if !s.pwr.suOp then .next s
  else
    let s1 := { s with flash := { s.flash with config := some (s.regs.filter fun e => configCode e.1), table := savedTable s }
                       pwr := { s.pwr with suOp := false } }
    .next (progDone (setBusy (putB s1 PWR.SUST_VALID true) pPWR false) pPWR)

/-- The effect of an accepted SUCMD. A SAVE counts 4 KiB units (R406); how many it writes the spec does not state: a free value. -/
def effPWR (s : State) (w : Word) : State :=
  match wbits w 3 0 with
  | 1 =>
    let d := draw s
    progStart (setBusy { d.2 with pwr := { s.pwr with suOp := true } } pPWR true) pPWR (max 1 ((Config.freeWord d.1).toNat % 2 ^ 24))
  | 2 => putB { s with flash := { s.flash with config := none, table := none } } PWR.SUST_VALID false
  | _ => s

/-- A context after its configuration is restored (R192). -/
def restoreCtx (s : State) (c : Nat) : State :=
  let s1 := put s (STM.CSTAT_NCH c) (ctxChans s c).length
  if flag s1 (STM.CCFG_CEN c) ∧ cstate s1 c = stOFF then setCState s1 c stIDLE else s1

/-- The stored table goes to the shadow and waits to be re-armed (R402). -/
def restoreSch (s : State) : State :=
  match s.flash.table with
  | none => s
  | some t =>
    if flag s PWR.SUCFG_REARM then
      let sh := shadowT s
      let s1 := t.ents.foldl (fun s e => put s (SCH.ENT (e.1 % 6) (sh * 256 + e.1 / 6)) e.2) s
      let s2 := puts s1 [(SCH.EPOCHS_EP, t.epoch), (SCH.BASESH_SEC, t.base / 2 ^ 32), (SCH.BASESL_SEC, t.base)]
      { s2 with sch := { s2.sch with rearm := true } }
    else s

/-- The start-up configuration is restored (R401): its fields, then what they set in motion. -/
def restoreConfig (s : State) : State :=
  match s.flash.config with
  | none => s
  | some cfg =>
    let s1 := { s with regs := cfg.foldl (fun t e => tins e.1 e.2 (terase e.1 t)) (s.regs.filter fun e => !configCode e.1) }
    let off := (List.range 17).filter fun d => decide (2 ≤ d) && bit (get s1 PWR.PDST_PG) d && !bit (get s1 PWR.PDEN_EN) (d - 2)
    let s2 := forEach off domainOff s1
    let pages := (List.range 0x80).filter fun p => assigned p && answers s2 p && flag s2 (hENABLE p) && pstate s2 p = stOFF
    let s3 := forEach pages (fun s p => enableTo s p true) s2
    let s4 := { s3 with pwr := { s3.pwr with eco := get s3 PWR.AFEMD_ECO, ecoPend := 0 } }
    restoreSch (reselect (refreshAxs (refreshFlt (forEach (List.range 64) restoreCtx (relimit (afterOPT s s4))))))

/-- Banks and OBK that the restored configuration enables start (R404, step 5), where START would be accepted. -/
def startBanks (s : State) : State :=
  forEach ((List.range 49).filter fun n => bstate s n = stIDLE)
    (fun s n => if (violBcmd s s n 0 (wd 1)).isEmpty && answers s (bankPage n) then bankStart s n stRUN else s) s

/-- Step 5 of start-up (R404): once no loader is in BOOT and MGP runs, the start-up configuration is restored if SUCFG.AUTO = 1, MTR
takes its sealed record, and the banks start. -/
def startStep5 (s : State) : State :=
  if s.pwr.starting ∧ mgpRuns s ∧ (List.range 4).all fun p => loader s p != ldBOOT then
    let s1 := { s with pwr := { s.pwr with starting := false } }
    let s2 := if flag s1 PWR.SUCFG_AUTO then restoreConfig s1 else s1
    let s3 := if domainOn s2 2 then mtrPowerUp s2 else s2
    if flag s1 PWR.SUCFG_AUTO ∧ s.flash.config.isSome then startBanks s3 else s3
  else s

/-- MTP's BOOT has ended after PD_MTR came up: MTR takes its sealed record (R170), at start-up with step 5. -/
def mtrBooted (s : State) (p : Nat) : State :=
  if p = 1 ∧ s.mtr.loadDue then
    let s1 := { s with mtr := { s.mtr with loadDue := false } }
    if s.pwr.starting then s1 else mtrPowerUp s1
  else s

/-- BOOT (R375, R380, R404): a loader's checks end; the processor runs, or the loader waits. -/
def execBoot (p : Nat) (found : BootFacts) (swdig : List Word) (s : State) : Host.Outcome State Fault Refusal :=
  if 4 ≤ p then .fault .noSuchUnit
  else if loader s p ≠ ldBOOT then .next s
  else .next (startStep5 (mtrBooted (if bootOk s p found then procRuns s p swdig else bootFails s p) p))

/-- REARM (R402): the restored table is armed once a time source is selected and the servo has made its start-up step; it is the head's or a standalone hub's own, or of the
AGEN the beacons name; a table the checks refuse is discarded. It switches at the first whole 10 ms at least 1 ms away. -/
def execRearm (s : State) : Host.Outcome State Fault Refusal :=
  let auth := get s DOM.DROLE_AUTH
  let ours := decide (auth ≤ 1) || s.dom.beaconGen = some (get s DOM.AGEN_GEN % 65536)
  if s.sch.rearm ∧ pstate s pSCH = stIDLE ∧ get s TSU.TSTAT_SRC ≠ 0 ∧ s.tsu.stepDone ∧ ours then
    let s1 := { s with sch := { s.sch with rearm := false } }
    if !(commitErrs s1 true).isEmpty ∨ commitState s1 then .next (effSCH s1 (wd 4))
    else
      let ms10 := 10000000 * 65536
      let at_ := (now16 s + 1000000 * 65536 + ms10 - 1) / ms10 * ms10
      let s2 := commitShadow s1
      .next { s2 with sch := { s2.sch with rearmAt := some at_ } }
  else .next s

/-- SUDONE (R404): the first settled slot has emerged `ms` after t0. -/
def execSudone (ms : Nat) (s : State) : Host.Outcome State Fault Refusal := .next (raise (put s PWR.SUST_SUT ms) pPWR 13)

/-! ### Whole-hub resets (R394, R395, R399, R404) -/

/-- What a context keeps through a whole-hub reset (R184, R249): its numbers, its records, and the newest tag in them. -/
def keptCtx (x : Ctx) : Ctx := { wait := x.wait, acked := x.acked, newest := x.newest, ackT := x.ackT }

/-- The hub without power or held in reset: CANVAS, sessions and every volatile state are gone; flash, fuses and the state of PD_AON
stay, and PDEN and AFEMD where the cause lets them (R397). Maker mode and its challenge end with the power alone (R365, R366). -/
def downState (s0 : State) (power : Bool) : State :=
  let s := cnvLoss s0
  let keep (code : Nat) : Bool :=
    storedOff (codePage code) (codeOff code) || (!power && codePage code = pPWR && (codeOff code = 0x44 || codeOff code = 0x4C)) ||
    (!power && codePage code = pSEC && (codeOff code = 0x64 || codeOff code = 0x68))
  let base : State := { State.reset with
    regs := s.regs.filter fun e => keep e.1
    fresh := s.fresh
    out := s.out
    axs := { encA := s.axs.encA, encB := s.axs.encB }
    mtr := { s.mtr with op := none, verify := none, seals := [], loadDue := false }
    ctxs := (s.ctxs.map fun e => (e.1, keptCtx e.2)).filter fun e => e.2 ≠ {}
    dom := { recPos := s.dom.recPos, recSig := s.dom.recSig }
    twl := { strap := s.twl.strap }
    log := s.log
    sec := { anchor := s.sec.anchor, endorse := s.sec.endorse, secret := s.sec.secret, cert := s.sec.cert, chal := if power then none else s.sec.chal }
    flash := s.flash
    pwr := { vin := s.pwr.vin, lock := s.pwr.lock, l0Seen := !power && s.pwr.l0Seen, l0Bad := !power && s.pwr.l0Bad }
    pending := s.pending }
  let s0 := if power then puts base [(SEC.OSTAT_MKMD, 0), (DEV.DSTAT_MAKER, 0)]
    else if flag base SEC.OSTAT_MKMD then put base (hSTATE pDEV) stTEST else base
  let s1 := clearMstat (puts s0 [(PWR.SUST_VALID, if s.flash.config.isSome then 1 else 0),
    (PWR.PDST_PG, 0), (PWR.PORTST_ILIM 0, 0), (PWR.PORTST_ILIM 1, 0)])
  forEach [0, 1, 2, 3] (fun s p => puts s [(MGT.PRST_ST p, 0), (UPD.ILVL_LST p, ldBOOT)]) s1

/-- A new key generation of a context at power-up (R187). -/
def powerKeyGen (s : State) (c : Nat) : State :=
  let s1 := bumpMod s (STM.CKGEN_GEN c)
  setCtx s1 c { ctx s1 c with secret := s.sec.secret }

/-- Step 1 of start-up (R404): the cause is recorded, the enabled domains hold power good, the level is judged, the loaders begin BOOT
or wait without an image, the self-checks and bring-ups begin, and the role is decided. -/
def startUp (s0 : State) (cause : Nat) : State :=
  let s := showStrap { s0 with pwr := { s0.pwr with lock := false, starting := true, eco := get s0 PWR.AFEMD_ECO } }
  let s1 := puts (bumpMod s PWR.LASTR_NRST) [(PWR.LASTR_CAUSE, cause), (PWR.PDST_PG, get s PWR.PDEN_EN * 4 + 3),
    (PWR.SLVL_LEVEL, if meanBelow s (sag2 s) then 2 else if meanBelow s (sag1 s) then 1 else 0), (CLK.PLLST_CCK, 1), (CLK.PLLST_SMP, 1),
    (CLK.PLLST_XCK, 1)]
  let s2 := forEach [0, 1, 2, 3] (fun s p => setLoader s p (if tget s.flash.regions p true then ldBOOT else ldWAIT)) s1
  let s3 := forEach ((List.range 17).filter fun d => decide (3 ≤ d) && domainOn s2 d) domainUp s2
  let s4 := forEach (List.range 64) powerKeyGen (linLoad (refreshOwner s3))
  refreshPg (refreshAuth s4)

/-- UVLO (R394): below 38.0 V PG_N is released, FAIL class 8 goes to the partner, the pass-through opens, drives stop, and the domains
switch off. -/
def execUvlo (s : State) : Host.Outcome State Fault Refusal :=
  if s.pwr.lock ∨ !meanBelow s 3800 then .next s
  else
    let s1 := if twin s then sendFail s 8 else s
    let s2 := downState s1 true
    .next { s2 with pwr := { s2.pwr with lock := true, pgN := false } }

/-- LID_N at power-up (R166): a lid that is open then is a counted event. -/
def lidAtPower (s : State) (lid : Bool) : State :=
  let s1 := putB s MTR.MSTAT_LIDO lid
  if lid then hwEvent s1 5 0 1 else s1

/-- POWER_ON (R395, R399, R404): V_IN has been above 42.0 V for 100 ms; after a lockout the cause is UVLO. The sealed
record's signature is checked (R170), and the device key and the metrology key are generated where there are none (R159, R355). -/
def execPowerOn (found : PowerFacts) (s : State) : Host.Outcome State Fault Refusal :=
  let s0 := { s with mtr := { s.mtr with recGood := found.good } }
  .next (lidAtPower (startUp (downState (firstMetroKey (firstKey s0)) true) (if s.pwr.lock then 2 else 0)) found.lid)

/-- A whole-hub reset that keeps PDEN and AFEMD (R399); none happens without power. -/
def hubReset (s : State) (cause : Nat) : State := if s.pwr.lock then s else startUp (downState s false) cause

/-- RST_N (R399): the pad is released. -/
def execRstN (s : State) : Host.Outcome State Fault Refusal := .next (hubReset s 1)

/-- PLL_LOSS (R399, R407): CCLK, sample PLL or XCLK out of lock; PLLUL is logged before the reset. -/
def execPllLoss (pll : Nat) (s : State) : Host.Outcome State Fault Refusal :=
  if 3 ≤ pll then .fault .noSuchUnit else .next (hubReset (raise s pCLK 9) 3)

/-- A page of a domain with a flagged rail enters FAULT (R398), if its block has that state. -/
def railFault (s : State) (page : Nat) : State :=
  match bankOfPage page with
  | some n => bankToFault s n
  | none =>
    if page = pOPT then bankToFault s 48
    else if page = pTKE then linkLeave s 0 stFAULT
    else if page = pTKW then linkLeave s 1 stFAULT
    else if page = pTWL then (if s.twl.strap = 0 then s else pageFault (linkLeave s 2 stFAULT) pTWL)
    else if page = pEXC then
      refreshDrive (setPState (forEach ((List.range 48).filter (bankDrives s)) bankToFault s) pEXC stFAULT)
    else if page = pCNV then pageFault s page
    else s

/-- The switchable domains a rail supplies (R398). -/
def railDomains (i : Nat) : List Nat :=
  match i with
  | 4 => [13]
  | 5 => [13]
  | 6 => [14, 15, 16]
  | 8 => [3, 4, 5, 6, 7, 8, 10]
  | 9 => [3, 4, 5, 6, 7, 8]
  | 10 => [3, 4, 5, 6, 7, 8]
  | 11 => [9]
  | _ => []

/-- RAIL (R398): a rail outside ±5 %. A rail of PD_AON or PD_MGT resets the hub: AON, and CORE and SRAM, which supply the digital domains;
another moves the pages of its domains to FAULT; PG_N is released. -/
def execRail (i : Nat) (s : State) : Host.Outcome State Fault Refusal :=
  if 12 ≤ i then .fault .noSuchUnit
  else if i ≤ 2 then .next (hubReset s 4)
  else
    let pages := ((railDomains i).filter (domainOn s)).flatMap domainPages
    let s1 := forEach (pages.filter fun p => pstate s p != stOFF) railFault s
    .next { s1 with pwr := { s1.pwr with pgN := false } }

/-! ### Pages PWR and CLK (R396, R406, R407) -/

/-- Whether a bank keeps its domain on (R396): neither OFF nor IDLE. -/
def bankHolds (s : State) (n : Nat) : Bool := bstate s n != stOFF && bstate s n != stIDLE

/-- A port that keeps PD_OPT on. -/
def optPortHolds (s : State) (p : Nat) : Bool := get s (OPTP.PST_STATE p) != stOFF && get s (OPTP.PST_STATE p) != stIDLE

/-- Why power domain `d` may not be switched off now (R396, R204, R255, R276). -/
def violOffDom (s : State) (d : Nat) : List Viol :=
  let off := 0x44
  let locked (l : List Nat) : List Viol := viol (l.any fun n => bstate s n = stSEALED) .locked off
  let sch := pstate s pSCH
  match d with
  | 2 => viol (pstate s pMTR = stSEALED || pstate s pMTR = stFAULT) .state off
  | 9 => viol (anyDrives s) .state off
  | 10 => viol (bankHolds s 48 || (List.range 16).any (optPortHolds s)) .state off ++ locked [48]
  | 11 => viol ((sch != stOFF && sch != stIDLE) || (List.range 49).any (bankHolds s) ||
      (List.range 64).any fun c => cstate s c != stOFF) .state off
  | 12 => viol (decide (0 < jobsHeld s) || (List.range 64).any fun c => (decide (2 ≤ cstate s c) && decide (cstate s c ≤ 5)) ||
      (c != 0 && (!(queue s c).items.isEmpty || (queue s c).part != 0))) .state off
  | 13 => viol (pstate s pCNV = stRUN) .state off
  | 14 => viol (linkSt s 0 = stARMED || linkSt s 0 = stRUN || linkSt s 0 = stTEST) .state off
  | 15 => viol (linkSt s 1 = stARMED || linkSt s 1 = stRUN || linkSt s 1 = stTEST) .state off
  | 16 => viol (schActive s || !(role s = rSINGLE || role s = rISOLATED)) .state off
  | d => if 3 ≤ d ∧ d ≤ 8 then viol ((domainBanks d).any (bankHolds s)) .state off ++ locked (domainBanks d) else []

/-- The domains whose PDEN bit a burst clears, or sets. -/
def cleared (s img : State) : List Nat := (List.range 17).filter fun d =>
  decide (2 ≤ d) && bit (get s PWR.PDEN_EN) (d - 2) && !bit (get img PWR.PDEN_EN) (d - 2)

/-- The groups whose economy bit a burst changes. -/
def ecoChanged (s img : State) : List Nat := (List.range 6).filter fun g => bit (get s PWR.AFEMD_ECO) g != bit (get img PWR.AFEMD_ECO) g

/-- A bank whose FRESP does not suit economy (R118). -/
def ecoUnfit (img : State) (n : Nat) : Bool :=
  !mwin img n && (get img (BNK.FRESP_CICD n) % 4 != 0 || decide (get img (BNK.FRESP_CICD n) < 256))

/-- The reasons a word of page PWR is rejected beyond the fields' own legal sets (R117, R118, R391, R396, R406). -/
def violPWR (s img : State) (off : Nat) (w : Word) : List Viol :=
  if off = 0x40 then
    match wbits w 3 0 with
    | 0 => []
    | 1 => viol (flag s (hBUSY pPWR)) .busy off
    | 2 => viol (flag s (hBUSY pPWR)) .busy off
    | _ => [(.range, off)]
  else if off = 0x44 then (cleared s img).flatMap (violOffDom s)
  else if off = 0x4C then
    (ecoChanged s img).flatMap fun g =>
      let l := domainBanks (3 + g)
      viol (l.any fun n => bstate s n = stSEALED) .locked off ++ viol (l.any (bankHolds s)) .state off ++
        viol (bit (get img PWR.AFEMD_ECO) g && l.any (ecoUnfit img)) .range off
  else if off = 0x54 then
    let a := get img PWR.SAGL_SAG1
    let b := get img PWR.SAGL_SAG2
    viol (!(decide (390 ≤ b) && decide (b ≤ 480) && decide (b + 10 ≤ a) && decide (a ≤ 500))) .range off
  else []

/-- What a committed burst on page PWR does beyond its fields: domains switch off, economy changes begin, pass-through follows. -/
def afterPWR (old s : State) : State :=
  let s1 := forEach (cleared old s) domainOff s
  let s2 := { s1 with pwr := { s1.pwr with ecoPend := s1.pwr.ecoPend ||| maskOf (ecoChanged old s) } }
  refreshPg (ptCheck s2)

/-- DOMAIN_POWER_GOOD (R397): a domain that PDEN switches on reaches power good. -/
def execDomainPowerGood (d : Nat) (s : State) : Host.Outcome State Fault Refusal :=
  if 17 ≤ d then .fault .noSuchUnit
  else if 2 ≤ d ∧ bit (get s PWR.PDEN_EN) (d - 2) ∧ !domainOn s d ∧ !s.pwr.lock then .next (refreshPg (domainUp s d)) else .next s

end Sys2Proof.Machine
end

