-- ==== Sys2Proof/Machine/Window.lean ====
section
/-! DEFINITION. The register window (R24–R46, R424, R425): how a burst is judged on its image and committed, what a read returns, and
the order in which a session's messages execute (R360, R361, R429). -/

namespace Sys2Proof.Machine

/-! ### Words and fields of a burst -/

/-- The words of a burst with their offsets, rising. -/
def placed (off : Nat) : List Word → List (Nat × Word)
  | [] => []
  | w :: t => (off, w) :: placed (off + 4) t

/-- Whether a field keeps what is written. -/
def keeps (t : FTy) : Bool := t = .rw || t = .rwl || t = .rwe

/-- Put one field of a written word into a state (R39): 1 clears a W1C bit; RO and WO fields hold nothing of the word. -/
def putField (page o idx : Nat) (w : Word) (s : State) (f : FieldDef) : State :=
  let d := fldOf page o idx f
  let v := wbits w f.hi f.lo
  match f.ty with
  | .ro => s
  | .wo => s
  | .w1c => put s d (get s d - (get s d &&& v))
  | _ => put s d v

/-- Put a written word into a state; the work window of CNV is CANVAS itself (R256). -/
def putWord (page : Nat) (s : State) (p : Nat × Word) : State :=
  if page = pCNV ∧ 0x400 ≤ p.1 ∧ p.1 < 0x800 then memPut s (wwinAddr s p.1) p.2
  else match regAt page p.1 with
    | none => s
    | some r => r.fields.foldl (putField page p.1 (selIdx s page r.sel) p.2) s

/-! ### Rights (R26, R33, R373) -/

/-- The role a transaction executes with; MGP's firmware has every right (R25, DESIGN CHOICE). -/
def actRole (s : State) (src : Src) : Role := (srcRole s src).getD .observer

/-- Whether a role may write a page at all. -/
def mayWrite (r : Role) (page : Nat) : Bool :=
  match r with
  | .owner => true
  | .operator => page != pSEC
  | .observer => false
  | .service => page = pUPD || page = pSVC

/-- Why an access fails before any word is looked at: the role or the path, a page boundary, an unaligned or unassigned address, a page
that does not answer. -/
def violAccess (s : State) (src : Src) (page off n : Nat) (wr : Bool) : List Viol :=
  viol (wr && (!mayWrite (actRole s src) page || page = pMAKER || (page = pUPD && !onService s src))) .auth off ++
  viol (decide (0x1000 < off + 4 * n)) .size off ++ viol (off % 4 != 0 || !assigned page) .range off ++
  viol (assigned page && !answers s page) .state off

/-- Record a rejection: on the page, or in DEV.XREJ where no page can record it (R33, R42). -/
def record (s : State) (src : Src) (page : Nat) (v : Viol) : State :=
  if !assigned page ∨ page = pMAKER ∨ !answers s page then recordX s page src v.1.code true else recordRej s page src v.1 v.2

/-! ### Judging a write (R28, R36, R38–R41, R424, R425) -/

/-- A field's legal set (R45). -/
def violChk (c : Chk) (v o : Nat) : List Viol :=
  match c with
  | .any => []
  | .between lo hi => viol (decide (v < lo) || decide (hi < v)) .range o
  | .outside lo hi => viol (decide (lo ≤ v) && decide (v ≤ hi)) .range o
  | .size m => viol (decide (m < v)) .size o
  | .clear => viol (v != 0) .range o
  | .finite => viol (v / 2 ^ 23 % 256 = 255) .range o

/-- Whether a page's RWL fields are read-only in the image: SEALED, or LOCK as the burst leaves it (R28, R39; DEDUCED: LOCK is a field
and is judged on the image). -/
def shut (s img : State) (page : Nat) : Bool := pstate s page = stSEALED || flag img (hLOCK page)

/-- Whether a session's write belongs to the active unit (R333): this unit is in STANDBY or YIELD. -/
def mirrorShut (s : State) (src : Src) : Bool :=
  (srcSid src).isSome && (role s = rSTANDBY || role s = rYIELD)

/-- Whether a field is a command field (R425): OP, or a command bit; a WO field further up only qualifies OP. -/
def commands (f : FieldDef) : Bool := f.ty = .wo && decide (f.lo < 4)

/-- The reasons one field of a word is rejected by its type. -/
def violField (s img : State) (src : Src) (page o idx : Nat) (w : Word) (f : FieldDef) : List Viol :=
  let v := wbits w f.hi f.lo
  let c := keeps f.ty && chg s img (fldOf page o idx f)
  (if keeps f.ty then violChk f.chk v o else []) ++ viol (f.ty = .rwl && c && shut s img page) .locked o ++
  viol (f.ty = .rwe && c && !(pstate s page = stOFF || pstate s page = stIDLE)) .state o ++
  viol (mirrorShut s src && mirrored page o && (c || (commands f && v != 0))) .state o

/-- The pages without the states OFF and IDLE: SOFT_RESET has nowhere to take them (R36, R37; DEDUCED). -/
def noIdle (page : Nat) : Bool := page = pDEV || page = pPWR || page = pCLK || page = pMGT || page = pSEC

/-- A block state in which ENABLE is not cleared (R38). -/
def working (st : Nat) : Bool := decide (stARMED ≤ st) && decide (st ≤ stTEST)

/-- Why clearing ENABLE is rejected (R38, R276, R349). R38 lists no row for FAULT and SEALED: there the write is accepted, ENABLE is
stored and the state stays until SOFT_RESET or an unseal (DESIGN CHOICE, log entry 103). -/
def enableHeld (s : State) (page : Nat) : Bool :=
  if page = pTWL then !(role s = rSINGLE || role s = rISOLATED)
  else working (pstate s page) || (page = pTSU && schActive s)

/-- The reasons PCTL is rejected: LOCK by another role than OWNER (R26), ENABLE (R38), SOFT_RESET (R36; R161 where the reset would
change a sealed field, and R278 where it would change ETH's MODE or TRANS under a session). -/
def violPctl (s img : State) (src : Src) (page : Nat) (w : Word) : List Viol :=
  let st := pstate s page
  let rst := wbits w 1 1 = 1
  viol (chg s img (hLOCK page) && actRole s src != .owner) .auth 8 ++
  viol (flag s (hENABLE page) && !flag img (hENABLE page) && enableHeld s page) .state 8 ++
  viol (rst && (noIdle page || st = stARMED || st = stRUN || st = stDRAIN || (page = pETH && ethSession s &&
    (chg s (softReset s page) ETH.ECFG_MODE || chg s (softReset s page) ETH.PTPCFG_TRANS)) ||
    ((bankOfPage page).any fun n => heartbeatStop s img [n]))) .state 8 ++
  viol (rst && (shut s img page || (page = pMTR && st = stFAULT) ||
    (sealLocks s && !(legalChanged s (softReset s page) page).isEmpty))) .locked 8

/-- The reasons a page's own chapter gives to reject a word. `op` is the command of UCMD in the same burst. -/
def violPage (s img : State) (src : Src) (good : Bool) (page op o : Nat) (w : Word) : List Viol :=
  match bankOfPage page with
  | some n => violBank s img n o w
  | none =>
    if page = pDEV then violDEV img o
    else if page = pPWR then violPWR s img o w
    else if page = pSCH then violSCH s img o w
    else if page = pAXS then violAXS s img o
    else if page = pEXC then violEXC s img o w
    else if page = pLIN then violLIN s img o w
    else if page = pMTR then (if o = 0x40 then violMcmd s img src good o w else violMTR s img o)
    else if page = pOPT then (if 0x400 ≤ o then violBank s img 48 o w else violOPT s img o w)
    else if page = pSTM then violSTM s img o w
    else if page = pQUE then violQUE s img o w
    else if page = pCDC then violCDC s img o w ++ (if o = 0xA0 then violDcmd s img o w else [])
    else if page = pCTX then (if o = 0x44 then violXcmd s img o w else [])
    else if page = pCNV then violCNV s img o
    else if page = pTSU then violTSU s img src o w
    else if page = pETH then violETH s img o
    else if page = pTKE then violTK s 0 o w
    else if page = pTKW then violTK s 1 o w
    else if page = pDOM then violDOM s img src good o w
    else if page = pTWL then violTWL s o w
    else if page = pMGT then violMGT s img o w
    else if page = pSEC then violSEC s img src good o w
    else if page = pUPD then violUPD s img src op o w
    else if page = pSVC then violSVC s img src o
    else []

/-- The command that the word at 0x40 of a burst gives. -/
def opOf (l : List (Nat × Word)) : Nat :=
  match l.find? fun p => p.1 = 0x40 with
  | some p => wbits p.2 3 0
  | none => 0

/-- Whether a register whose fields are all RO may lie in the burst: USTAT between UCMD OPEN and ULEN (R377 against R39, DEDUCED), and TSTAT
between a TCTL that leaves SERVO = 0 and the increment, which R260 has in one burst (DEDUCED). -/
def roAllowed (img : State) (page o : Nat) (l : List (Nat × Word)) : Bool :=
  (page = pUPD && o = 0x44 && opOf l = 1) ||
    (page = pTSU && o = 0x44 && !flag img TSU.TCTL_SERVO && (l.any fun p => p.1 = 0x40) && l.any fun p => p.1 = 0x48)

/-- The reasons a word of a burst is rejected. -/
def violWord (s img : State) (src : Src) (good : Bool) (page : Nat) (l : List (Nat × Word)) (p : Nat × Word) : List Viol :=
  let o := p.1
  let w := p.2
  (match regAt page o with
    | none => viol (w != 0#32) .rsvd o
    | some r =>
      let mask := if o = 0x10 ∨ o = 0x14 then evtMask page else fieldMask r
      viol (w.toNat &&& mask != w.toNat) .rsvd o ++
      viol ((r.fields.all fun f => f.ty = .ro) && !roAllowed img page o l) .range o ++
      r.fields.flatMap (violField s img src page o (selIdx img page r.sel) w)) ++
  (if o = 8 then violPctl s img src page w else []) ++ violLegal s img page o ++ violHeart s img page o ++ violPage s img src good page (opOf l) o w

/-- The image of a burst and the reasons its words are rejected. -/
def judge (s : State) (src : Src) (good : Bool) (page off : Nat) (ws : List Word) : State × List Viol :=
  let l := placed off ws
  let img := l.foldl (putWord page) s
  (img, l.flatMap (violWord s img src good page l))

/-! ### Committing a write (R28, R30) -/

/-- What a word with a command does. -/
def effWord (src : Src) (good : Bool) (page : Nat) (s : State) (p : Nat × Word) : State :=
  let o := p.1
  let w := p.2
  match bankOfPage page with
  | some n => if o = 0x40 then effBcmd s n w else s
  | none =>
    if page = pTSU then effTSU s o w
    else if page = pEXC then (if o = 0x4C ∧ wbits w 0 0 = 1 then allOff s else s)
    else if page = pLIN then (if o = 0xC0 then effLcmd s w else if o = 0xC8 then testEval s else s)
    else if page = pOPT ∧ o = 0x440 then effBcmd s 48 w
    else if page = pSTM then (if o = 0x4C then effCcmd s w else s)
    else if page = pQUE then (if o = 0x70 then effQcmd s w else s)
    else if page = pCTX then (if o = 0x44 then effXcmd s w else s)
    else if page = pDOM then (if o = 0x60 then effDOM s good w else s)
    else if page = pCDC ∧ o = 0xA0 then effDcmd s w
    else if o = 0x40 then
      if page = pPWR then effPWR s w
      else if page = pSCH then effSCH s w
      else if page = pMTR then effMcmd s src good w
      else if page = pOPT then effOcmd s w
      else if page = pCDC then effCdcmd s w
      else if page = pTKE then effTK s 0 w
      else if page = pTKW then effTK s 1 w
      else if page = pTWL then effTWL s w
      else if page = pMGT then effMGT s w
      else if page = pSEC then effScmd s src w
      else if page = pUPD then effUcmd s src w
      else s
    else s

/-- What a page does with a commit beyond setting its fields; `offs` are the block offsets written. -/
def afterPage (old s : State) (page : Nat) (offs : List Nat) : State :=
  match bankOfPage page with
  | some n => frespEmerge old (afterBank old s n) n
  | none =>
    if page = pOPT then
      let s1 := relimit (afterOPT old s)
      if offs.any fun o => 0x400 ≤ o then frespEmerge old (afterBank old s1 48) 48 else s1
    else if page = pLIN then afterLIN s
    else if page = pSTM then afterSTM old s
    else if page = pAXS then ppsLost (afterAXS old s)
    else if page = pQUE then afterQUE s
    else if page = pCDC then afterCDC s (offs.contains 0x44)
    else if page = pCTX then afterCTX s (offs.any fun o => 0x400 ≤ o)
    else if page = pCNV then afterCNV s
    else if page = pTSU then afterTSU old s
    else if page = pETH then afterETH old s
    else if page = pDOM then afterDOM old s
    else if page = pSEC then afterSEC s (offs.any fun o => 0x400 ≤ o)
    else if page = pUPD then afterUPD s offs
    else if page = pPWR then afterPWR old s
    else if page = pTWL then refreshDrive { s with twl := { s.twl with thpShown := true } }
    else s

/-- PCTL's effect: SOFT_RESET, or ENABLE (R36, R38). -/
def pctlEffect (s : State) (page : Nat) (w : Word) : State :=
  if wbits w 1 1 = 1 then softReset s page else enableTo s page (flag s (hENABLE page))

/-- Whether a written word changes a stored field of its register. -/
def wordChanges (old s : State) (page : Nat) (p : Nat × Word) : Bool :=
  match regAt page p.1 with
  | none => false
  | some r => r.fields.any fun f => keeps f.ty && chg old s (fldOf page p.1 (selIdx s page r.sel) f)

/-- A bank's configuration changes in this 10 ms interval (R334). -/
def noteBank (s : State) (n : Nat) : State := setBank s n { bank s n with cfgK := some (nowNs s / 10000000) }

/-- A bank whose configuration a commit changes is not compared for a while (R334), and THP follows it (R339). -/
def noteConfig (old s : State) (page : Nat) (l : List (Nat × Word)) : State :=
  match bankOf page with
  | none => s
  | some n =>
    if l.any (wordChanges old s page) then noteBank { s with twl := { s.twl with thpShown := true } } n else s

/-- The part of a burst that the standby gets (R333, R336): from its first to its last mirrored word, other words in between 0. -/
def mirrorPart (page : Nat) (l : List (Nat × Word)) : List (Nat × Word) :=
  let m (p : Nat × Word) : Bool := mirrored page p.1
  ((((l.dropWhile fun p => !m p).reverse).dropWhile fun p => !m p).reverse).map fun p => if m p then p else (p.1, 0#32)

/-- A committed burst with mirrored words becomes a generation. -/
def mirrorCommit (s : State) (page : Nat) (l : List (Nat × Word)) : State :=
  match mirrorPart page l with
  | [] => s
  | p :: t => mirrorBurst s page p.1 ((p :: t).map (·.2))

/-- A commit that enables event bits which are already set raises a notice (R35: a bit set in both PEVT and PEVTEN). -/
def enableNotice (old s : State) (page : Nat) : State :=
  if get s (hPEVT page) &&& get s (hPEVTEN page) &&& (2 ^ 32 - 1 - get old (hPEVTEN page)) = 0 then s else noticeDue s page

/-- Commit a burst: header words, PCTL's effect, block words, what the page makes of them, and the commands in ascending order. -/
def commit (s : State) (src : Src) (good : Bool) (page off : Nat) (ws : List Word) : State :=
  let l := placed off ws
  let head := l.filter fun p => p.1 < 0x40
  let body := l.filter fun p => 0x40 ≤ p.1
  let s1 := enableNotice s (head.foldl (putWord page) s) page
  let s2 := match head.find? fun p => p.1 = 8 with
    | some p => pctlEffect s1 page p.2
    | none => s1
  let s3 := body.foldl (putWord page) s2
  let s4 := if body.isEmpty then s3 else afterPage s2 s3 page (body.map (·.1))
  let s5 := noteConfig s2 (body.foldl (effWord src good page) s4) page body
  let s6 := if page = pOPT then relimit s5 else s5
  mirrorCommit (paramEvent s s6 src page) page l

/-- A rejected write (R42), with what a rejected schedule COMMIT reports (R59). -/
def rejectWrite (s img : State) (src : Src) (page : Nat) (ws : List Word) (off : Nat) (v : Viol) : State :=
  let s1 := record s src page v
  if page = pSCH ∧ v = (.range, 0x40) ∧ opOf (placed off ws) = 1 then schRejected s1 img else s1

/-- A write burst (R28): the status of its reply, and the state after it. -/
def windowWrite (s : State) (src : Src) (addr : Nat) (ws : List Word) (good : Bool) : Nat × State :=
  let page := pageOf addr
  let off := offOf addr
  match worst (violAccess s src page off ws.length true) with
  | some v => (v.1.code, record s src page v)
  | none =>
    let j := judge s src good page off ws
    match worst j.2 with
    | some v => (v.1.code, rejectWrite s j.1 src page ws off v)
    | none => (0, commit s src good page off ws)

/-! ### Reading (R28, R31, R33) -/

/-- The word at an offset of a page, as a source sees it: a computed register, or its stored fields. -/
def viewWord (s : State) (src : Src) (page o : Nat) : Word :=
  let v : Option Nat :=
    if let some n := bankOfPage page then viewBNK s n o
    else if page = pDEV then viewDEV s o
    else if page = pSCH then viewSCH s o
    else if page = pAXS then viewAXS s o
    else if page = pEXC then viewEXC s o
    else if page = pFLT then viewFLT s o
    else if page = pLIN then viewLIN s o
    else if page = pMTR then viewMTR s o
    else if page = pOPT then viewOPT s o
    else if page = pQUE then viewQUE s o
    else if page = pCDC then viewCDC s o
    else if page = pCNV then viewCNV s o
    else if page = pTSU then viewTSU s o
    else if page = pTKE then viewTK s 0 o
    else if page = pTKW then viewTK s 1 o
    else if page = pDOM then viewDOM s o
    else if page = pTWL then viewTWL s o
    else if page = pMGT then viewMGT s o
    else if page = pSEC then viewSEC s src o
    else none
  wd (v.getD (storedWord s page o))

/-- Whether an offset of a page lies in the pop window (R207). -/
def popPort (page o : Nat) : Bool := page = pQUE && decide (0x400 ≤ o) && decide (o < 0x800)

/-- Whether a word of a page belongs to the work window (R252). -/
def workWin (page o : Nat) : Bool := page = pCNV && decide (0x400 ≤ o) && decide (o < 0x800)

/-- Why a read fails: as an access, because the pop window shows a context queue (R207), or because the work window lies outside the work
segments (R252). -/
def violRead (s : State) (src : Src) (page off n : Nat) : List Viol :=
  violAccess s src page off n false ++
  viol (answers s page && decide (get s QUE.QSEL_Q ≤ 63) && (List.range n).any fun k => popPort page (off + 4 * k)) .range
    (if off < 0x400 then 0x400 else off) ++
  viol (answers s page && wwinOut s && (List.range n).any fun k => workWin page (off + 4 * k)) .range (if off < 0x400 then 0x400 else off)

/-- The words of a read from word `k` of its burst: a snapshot, but that each word of the pop window pops one word in turn. `bad` names the
words of the burst that fail parity there. -/
def readWords (s0 : State) (src : Src) (page : Nat) (bad : List Nat) (off : Nat) : Nat → Nat → State → List Word × State
  | _, 0, s => ([], s)
  | k, n + 1, s =>
    let o := off + 4 * k
    let p := if popPort page o then popWord s (get s0 QUE.QSEL_Q) (bad.contains k) else (viewWord s0 src page o, s)
    let r := readWords s0 src page bad off (k + 1) n p.2
    (p.1 :: r.1, r.2)

/-- A read burst: its reply and the state after it. `bad`: the popped words that fail parity. -/
def windowRead (s : State) (src : Src) (addr n : Nat) (bad : List Nat) : Reply × State :=
  let page := pageOf addr
  let off := offOf addr
  let zeros := List.replicate n 0#32
  match worst (violRead s src page off n) with
  | some v => (⟨v.1.code, zeros, 0⟩, record s src page v)
  | none =>
    if page = pMAKER then (⟨0, zeros, 0⟩, recordX s page src 0 false)
    else
      let r := readWords s src page bad off 0 n s
      (⟨0, r.1, 0⟩, r.2)

/-! ### Messages (R360, R361, R429) -/

/-- Subscribe (R429). -/
def subscribe (s : State) (sid page val : Nat) : Nat × State :=
  match session s sid with
  | none => (0, s)
  | some x =>
    if !assigned page ∨ 1 < val then (Reason.range.code, s)
    else if val = 0 then (0, setSession s sid (some { x with subs := x.subs.filter (· != page), due := x.due.filter (· != page) }))
    else if x.subs.contains page then (0, s)
    else if 32 ≤ x.subs.length then (Reason.size.code, s)
    else (0, setSession s sid (some { x with subs := x.subs ++ [page] }))

/-- Whether a message can be encoded (R27, R360): 1–256 words. -/
def encodable : WinMsg → Bool
  | .write _ ws _ => decide (1 ≤ ws.length) && decide (ws.length ≤ 256)
  | .read _ n _ => decide (1 ≤ n) && decide (n ≤ 256)
  | .cert _ n => decide (1 ≤ n) && decide (n ≤ 256)
  | _ => true

/-- The page a message is about. -/
def msgPage : WinMsg → Option Nat
  | .write a _ _ => some (pageOf a)
  | .read a _ _ => some (pageOf a)
  | .cert a _ => some (pageOf a)
  | .sub page _ => some page
  | _ => none

/-- The address or parameter of a message, T1 (R360): of a Subscribe the page, with 0 or 1 at [15:8]. -/
def msgParam : WinMsg → Nat
  | .write a _ _ => a
  | .read a _ _ => a
  | .cert a _ => a
  | .sub page val => page + val * 256
  | _ => 0

/-- Execute a message: its reply and the state after it. A read request for the maker certificate puts it into staging first (R370). -/
def takeMsg (s : State) (src : Src) : WinMsg → Reply × State
  | .write a ws good =>
    let r := windowWrite s src a ws good
    (⟨r.1, [], 0⟩, r.2)
  | .read a n bad => windowRead s src a n bad
  | .cert a n => windowRead (showCert s) src a n []
  | .sub page val =>
    let r := subscribe s ((srcSid src).getD 0) page val
    (⟨r.1, [], 0⟩, r.2)
  | .keepAlive => (⟨0, [], 0⟩, s)
  | .close => (⟨0, [], 0⟩, closeSession s ((srcSid src).getD 0))

/-- Whether a loader in WAIT answers for the window (R34). -/
def loaderWaits (s : State) : Bool := loader s 0 = ldWAIT

/-- Whether the loader answers a message in MGP's place (R34): it is about a page other than UPD and SVC. -/
def loaderServes (s : State) (m : WinMsg) : Bool :=
  !(mgpRuns s || (match msgPage m with
      | some p => p = pUPD || p = pSVC
      | none => true))

/-- Execute a message of a session, or answer for the loader: BUSY with its state word, recorded nowhere (R34). -/
def serve (s : State) (src : Src) (m : WinMsg) : Reply × State :=
  if loaderServes s m then
    let w := loaderWord s
    (⟨Reason.busy.code, [w.1], 0⟩, w.2)
  else takeMsg s src m

/-- Send a reply to a session that is still there (R360). -/
def answer (s : State) (sid tseq : Nat) (r : Reply) : State :=
  match session s sid with
  | none => s
  | some x =>
    let ws := sessionWords x sid tseq (replyWords r)
    emit (carry s x.path ws) (.reply sid tseq r ws)

/-- Execute the message whose turn it is, keep its reply, and answer; a session that the message closes gets none. -/
def runMsg (s : State) (sid tseq : Nat) (m : WinMsg) : State :=
  let r := serve s (.session sid tseq) m
  let a : Reply := { r.1 with t1 := msgParam m }
  match session r.2 sid with
  | none => r.2
  | some x => answer (setSession r.2 sid (some { x with cache := ((tseq, a) :: x.cache).take 64, next := tseq + 1 })) sid tseq a

/-- Execute held messages whose turn has come; the number bounds how many are held. -/
def drainSession : Nat → State → Nat → State
  | 0, s, _ => s
  | f + 1, s, sid =>
    match session s sid with
    | none => s
    | some x =>
      match x.held.find? fun h => h.1 = x.next with
      | none => s
      | some h =>
        drainSession f (runMsg (setSession s sid (some { x with held := x.held.filter fun e => e.1 != h.1 })) sid h.1 h.2) sid

/-- A message more than 64 ahead: BUSY, recorded on the page it addresses, not executed (R29, R361); a read returns zeros (R42). While a
loader answers for the page, its state word goes out and nothing is recorded (R34). -/
def tooFar (s : State) (sid tseq : Nat) (m : WinMsg) : State :=
  let src : Src := .session sid tseq
  if loaderServes s m then
    let w := loaderWord s
    answer w.2 sid tseq ⟨Reason.busy.code, [w.1], msgParam m⟩
  else
    match m with
    | .write a _ _ => answer (record s src (pageOf a) (.busy, offOf a)) sid tseq ⟨Reason.busy.code, [], a⟩
    | .read a n _ => answer (record s src (pageOf a) (.busy, offOf a)) sid tseq ⟨Reason.busy.code, List.replicate n 0#32, a⟩
    | .cert a n => answer (record s src (pageOf a) (.busy, offOf a)) sid tseq ⟨Reason.busy.code, List.replicate n 0#32, a⟩
    | _ => answer s sid tseq ⟨Reason.busy.code, [], msgParam m⟩

/-- A message of an open session arrives (R361): in its turn, ahead of it, too far ahead, or a repeat. -/
def arrive (s : State) (sid tseq : Nat) (x : Session) (m : WinMsg) : State :=
  if tseq < x.next then
    match x.cache.find? fun e => e.1 = tseq with
    | some e => answer s sid tseq e.2
    | none => s
  else if tseq = x.next then drainSession x.held.length (runMsg s sid tseq m) sid
  else if tseq ≤ x.next + 64 then
    if x.held.any fun e => e.1 = tseq then s else setSession s sid (some { x with held := x.held ++ [(tseq, m)] })
  else tooFar s sid tseq m

/-- Whether a message of a session is read at all: the session is open, and MGP runs, or its loader in WAIT on the service port (R34). -/
def heard (s : State) (x : Session) : Bool := x.open_ && (mgpRuns s || (loaderWaits s && x.path = .svc))

/-- A message that fails its tag is dropped and logged (R360). -/
def badTag (s : State) (sid : Nat) : State :=
  match session s sid with
  | none => s
  | some x => if heard s x then logSession (countRx s x.path) 0x0103 else s

/-- What a transaction keyed under the maker's token reads of page MAKER, which the spec does not describe: free words. -/
def makerWords : Nat → State → List Word × State
  | n, s => drawWords n s

/-- A transaction keyed under the token (R366): in maker mode page MAKER answers it, in the session's turn; what its words are the spec does
not say. Otherwise, and on any other page, it fails the session's tag. -/
def tokenMsg (s : State) (sid tseq : Nat) (m : WinMsg) : State :=
  match session s sid with
  | none => s
  | some x =>
    if !(flag s SEC.OSTAT_MKMD && heard s x && encodable m && tseq = x.next && msgPage m = some pMAKER) then badTag s sid
    else
      let r : Reply × State := match m with
        | .read a n _ =>
          let d := makerWords n s
          (⟨0, d.1, a⟩, d.2)
        | _ => (⟨0, [], msgParam m⟩, s)
      let x1 := { x with last := s.cyc, cache := ((tseq, r.1) :: x.cache).take 64, next := tseq + 1 }
      answer (countRx (setSession r.2 sid (some x1)) x.path) sid tseq r.1

/-- A message reaches the window: of MGP's firmware, while MGP runs; or of an open session, on whose path it counts. -/
def deliver (s : State) (src : Src) (m : WinMsg) : State :=
  match src with
  | .mgp => if mgpRuns s ∧ encodable m then (takeMsg s .mgp m).2 else s
  | .forged sid => badTag s sid
  | .token sid tseq => tokenMsg s sid tseq m
  | .session sid tseq =>
    match session s sid with
    | none => s
    | some x =>
      if !heard s x then s
      else if !encodable m then (if x.path = .svc then bumpSat s SVC.SVERR_N else s)
      else
        let x1 := { x with last := s.cyc }
        arrive (countRx (setSession s sid (some x1)) x.path) sid tseq x1 m

end Sys2Proof.Machine
end

