-- ==== Sys2Proof/Machine/TwlCk.lean ====
section
/-! DEFINITION. Checkpoints on the standby (R336–R338): frames are collected, and a whole checkpoint's bursts are applied through the
register window's own judgement. -/

namespace Sys2Proof.Machine

/-- Apply a burst under R28; none where it would be rejected. A rejected one is recorded on no page (R337 skips it). -/
def applyBurst (s : State) (b : CkBurst) : Option State :=
  match worst (violAccess s .mgp b.page b.off b.ws.length true) with
  | some _ => none
  | none =>
    match worst (judge s .mgp false b.page b.off b.ws).2 with
    | some _ => none
    | none => some (commit s .mgp false b.page b.off b.ws)

/-- A burst of a bank's page, other than of a FULL checkpoint, is a change of its configuration on the partner (R334; DEDUCED, log entry
128). -/
def noteBurst (s : State) (full : Bool) (b : CkBurst) : State :=
  match bankOf b.page with
  | some n => if full then s else noteBank s n
  | none => s

/-- Apply bursts in order, skipping rejected ones; the number tells how many were. -/
def applyBursts (s : State) (full : Bool) : List CkBurst → State × Nat
  | [] => (s, 0)
  | b :: t =>
    let s0 := noteBurst s full b
    match applyBurst s0 b with
    | some s1 => applyBursts s1 full t
    | none =>
      let r := applyBursts s0 full t
      (r.1, r.2 + 1)

/-- Adopt a context's state (C0): HOLD and RUN, which the partner's CCMD moves between and no burst mirrors, are taken at the next slot
boundary, as CCMD takes them; the other states follow from configuration and tables that both units hold. -/
def adoptState (s : State) (e : CkCtx) : State :=
  let x := ctx s e.ctx
  if cstate s e.ctx = stRUN ∧ e.state = stHOLD then setCtx s e.ctx { x with cmd := 1 }
  else if cstate s e.ctx = stHOLD ∧ e.state = stRUN then setCtx s e.ctx { x with cmd := 2 }
  else s

/-- Adopt a context entry (R337, R338): its state, and stored blocks whose last slot time is not later than ACKT are acknowledged. -/
def adoptEntry (s : State) (e : CkCtx) : State :=
  let s0 := adoptState s e
  let got := s.cnv.blocks.filter fun b => b.ctx = e.ctx && decide (b.tlast ≤ e.ackt)
  let x := ctx s0 e.ctx
  let s1 := setCtx s0 e.ctx { x with ackT := e.ackt, acked := match got.getLast? with
    | some b => some b.seq
    | none => x.acked }
  { s1 with cnv := { s1.cnv with blocks := s1.cnv.blocks.map fun b => if b.ctx = e.ctx ∧ b.tlast ≤ e.ackt then { b with acked := true } else b } }

/-- The bursts of a checkpoint that this unit has not applied: a FULL checkpoint's all, otherwise those of later generations (R336). -/
def newBursts (own g3 : Nat) (full : Bool) (bs : List CkBurst) : List CkBurst :=
  if full then bs else bs.drop (bs.length - (g3 + 2 ^ 32 - own) % 2 ^ 32)

/-- Whether generations are missing between this unit's and a checkpoint's first. -/
def genGap (own g3 : Nat) (full : Bool) (n : Nat) : Bool :=
  !full && newerBy 32 g3 own && decide (n < (g3 + 2 ^ 32 - own) % 2 ^ 32)

/-- Bring CONFIG_BEHIND in line: it ends once this unit has reached its partner's generation. -/
def refreshBehind (s : State) : State :=
  if newerBy 32 (get s TWL.PCGEN_N) (get s TWL.CGEN_N) then s else putB s TWL.TROLE_CFGB false

/-- Commit a checkpoint whose frames have all arrived (R337). -/
def commitCk (s : State) (fs : List CkFrame) (f : CkFrame) : State :=
  let own := get s TWL.CGEN_N
  let bs := fs.flatMap (·.bursts)
  let s1 :=
    if genGap own f.cgen f.full bs.length then raise (putB s TWL.TROLE_CFGB true) pTWL 13
    else if f.full ∨ newerBy 32 f.cgen own then
      let r := applyBursts s f.full (newBursts own f.cgen f.full bs)
      let r1 := if r.2 ≠ 0 then raise (putB r.1 TWL.TROLE_CFGREJ true) pTWL 12 else if f.full then putB r.1 TWL.TROLE_CFGREJ false else r.1
      let r2 := put r1 TWL.CGEN_N f.cgen
      if f.full then { r2 with twl := { r2.twl with fullReq := false } } else r2
    else s
  let s2 := put s1 TWL.CKN_N f.ckn
  refreshBehind (releaseSegs ((fs.flatMap (·.ctxs)).foldl adoptEntry s2))

/-- Whether a frame belongs to another checkpoint than the one being received: to a later one, which begins with it. -/
def beginsLater (s : State) (f : CkFrame) : Bool :=
  f.good && !s.twl.rx.isEmpty && (f.fidx = 0 || s.twl.rx.any fun g => g.ckn != f.ckn)

/-- Whether the frames of a checkpoint have all arrived, in order, each with a verified tag (R330, R337). -/
def ckWhole (fs : List CkFrame) : Bool :=
  fs.zipIdx.all (fun e => e.1.good && e.1.fidx = e.2) && fs.getLast?.any fun f => f.fidx + 1 = f.nfr

/-- CHECKPOINT_FRAME (R337): a frame of a checkpoint is held. One that begins a later checkpoint discards an incomplete one; once every frame
has arrived in order and verified, the checkpoint commits. A frame with a failed tag leaves its checkpoint incomplete. -/
def execCheckpointFrame (f : CkFrame) (s : State) : Host.Outcome State Fault Refusal :=
  onTwin s (
    if !twinUp s ∨ !(role s = rSTANDBY || role s = rYIELD || role s = rISOLATED) then s
    else
      let s0 := if beginsLater s f then discardCk s else s
      if s0.twl.rx.any fun g => g.ckn != f.ckn then s0
      else
        let rx := s0.twl.rx ++ [f]
        let keep (l : List CkFrame) : State := { s0 with twl := { s0.twl with rx := l } }
        if ckWhole rx then commitCk (keep []) rx f else keep rx)

/-! ### With no command waiting -/

/-- One CCLK cycle with no command waiting: time passes and sensors are measured, the pads of a TRIG entry whose START comes are driven
(R55), V_B and the limiter follow the ports (R96, R101), and EXPWR is raised where the programmed total has risen above 24 W with the
measured currents (R84); a signature operation ends (R370). -/
def idleStep (s : State) : State :=
  let s0 := signEnd (followBoost (startPads s (tick s)))
  let s1 := if pstate s0 pOPT = stOFF then s0 else relimit s0
  if loadE7 s ≤ 240000000 then checkPower s1 else s1

end Sys2Proof.Machine
end

