-- ==== Sys2Proof/Machine/WindowRows.lean ====
section
/-! DEFINITION. The window transactions that have rows of their own: WRITE_BURST and READ_BURST (R28), every command written to a register
as a burst of its words through the same window, POP, and a session's other messages (R360). -/

namespace Sys2Proof.Machine

/-- A write of a register row: its words at an offset of a page. -/
def sendWrite (s : State) (src : Src) (page off : Nat) (ws : List Word) (good : Bool) : Host.Outcome State Fault Refusal :=
  .next (deliver s src (.write (page * 0x1000 + off) ws good))

/-- WRITE_BURST (R28). -/
def execWriteBurst (src : Src) (addr : Nat) (ws : List Word) (good : Bool) (s : State) : Host.Outcome State Fault Refusal :=
  .next (deliver s src (.write addr ws good))

/-- READ_BURST (R28), or the read request for the maker certificate (R370). -/
def execReadBurst (src : Src) (addr : Nat) (req : ReadReq) (s : State) : Host.Outcome State Fault Refusal :=
  .next (deliver s src (if req.cert then .cert addr req.count else .read addr req.count req.bad))

/-- POP (R207): a read of one word of the pop window. -/
def execPop (src : Src) (off : Nat) (bad : Bool) (s : State) : Host.Outcome State Fault Refusal :=
  if 255 < off then .fault .noSuchUnit else .next (deliver s src (.read (pQUE * 0x1000 + 0x400 + 4 * off) 1 (if bad then [0] else [])))

/-- SUBSCRIBE (R429). -/
def execSubscribe (sid tseq page val : Nat) (s : State) : Host.Outcome State Fault Refusal :=
  .next (deliver s (.session sid tseq) (.sub page val))

/-- KEEP_ALIVE (R360): answered with status 0. -/
def execKeepAlive (sid tseq : Nat) (s : State) : Host.Outcome State Fault Refusal :=
  .next (deliver s (.session sid tseq) .keepAlive)

/-- CLOSE (R360): the session ends. -/
def execClose (sid tseq : Nat) (s : State) : Host.Outcome State Fault Refusal :=
  .next (deliver s (.session sid tseq) .close)

/-- SOFT_RESET: PCTL written with SOFT_RESET = 1, its other fields as they stand (R36). -/
def execSoftReset (src : Src) (page : Nat) (s : State) : Host.Outcome State Fault Refusal :=
  sendWrite s src page 8 [wd (storedWord s page 8 % 2 ^ 32 + 2)] false

/-- ENABLE: PCTL written with ENABLE, LOCK as it stands (R38). -/
def execEnable (src : Src) (page : Nat) (on : Bool) (s : State) : Host.Outcome State Fault Refusal :=
  sendWrite s src page 8 [wd (get s (hLOCK page) * 2 ^ 31 + on.toNat)] false

/-- SCH.CMD COMMIT (R62). -/
def execSchCommit (src : Src) (s : State) : Host.Outcome State Fault Refusal :=
  sendWrite s src pSCH 0x40 [1#32] false

/-- SCH.CMD ABANDON (R62). -/
def execSchAbandon (src : Src) (s : State) : Host.Outcome State Fault Refusal :=
  sendWrite s src pSCH 0x40 [2#32] false

/-- SCH.CMD STOP (R62). -/
def execSchStop (src : Src) (s : State) : Host.Outcome State Fault Refusal :=
  sendWrite s src pSCH 0x40 [3#32] false

/-- SCH.CMD CLEAR (R62). -/
def execSchClear (src : Src) (s : State) : Host.Outcome State Fault Refusal :=
  sendWrite s src pSCH 0x40 [4#32] false

/-- BCMD START (R90). -/
def execBcmdStart (src : Src) (bank : Nat) (s : State) : Host.Outcome State Fault Refusal :=
  if 48 < bank then .fault .noSuchUnit else sendWrite s src (bankPage bank) (bankOff bank 0x40) [1#32] false

/-- BCMD STOP (R90). -/
def execBcmdStop (src : Src) (bank : Nat) (s : State) : Host.Outcome State Fault Refusal :=
  if 48 < bank then .fault .noSuchUnit else sendWrite s src (bankPage bank) (bankOff bank 0x40) [2#32] false

/-- BCMD TESTIN (R90). -/
def execBcmdTestin (src : Src) (bank : Nat) (s : State) : Host.Outcome State Fault Refusal :=
  if 48 < bank then .fault .noSuchUnit else sendWrite s src (bankPage bank) (bankOff bank 0x40) [3#32] false

/-- BCMD TESTOUT (R90). -/
def execBcmdTestout (src : Src) (bank : Nat) (s : State) : Host.Outcome State Fault Refusal :=
  if 48 < bank then .fault .noSuchUnit else sendWrite s src (bankPage bank) (bankOff bank 0x40) [4#32] false

/-- EXCMD.ALLOFF (R93). -/
def execAlloff (src : Src) (s : State) : Host.Outcome State Fault Refusal :=
  sendWrite s src pEXC 0x4C [1#32] false

/-- OCMD START (R106). -/
def execOcmdStart (src : Src) (port : Nat) (s : State) : Host.Outcome State Fault Refusal :=
  if 15 < port then .fault .noSuchUnit else sendWrite s src pOPT 0x40 [wd (port * 256 + 1)] false

/-- OCMD STOP (R106). -/
def execOcmdStop (src : Src) (port : Nat) (s : State) : Host.Outcome State Fault Refusal :=
  if 15 < port then .fault .noSuchUnit else sendWrite s src pOPT 0x40 [wd (port * 256 + 2)] false

/-- OCMD CLEAR (R106). -/
def execOcmdClear (src : Src) (port : Nat) (s : State) : Host.Outcome State Fault Refusal :=
  if 15 < port then .fault .noSuchUnit else sendWrite s src pOPT 0x40 [wd (port * 256 + 3)] false

/-- OCMD GCLEAR (R106). -/
def execOcmdGclear (src : Src) (grp : Nat) (s : State) : Host.Outcome State Fault Refusal :=
  if 15 < grp then .fault .noSuchUnit else sendWrite s src pOPT 0x40 [wd (grp * 256 + 4)] false

/-- A write of SPARE (R131). -/
def execSpareWrite (src : Src) (bank : Nat) (suse : Nat) (schn : Nat) (s : State) : Host.Outcome State Fault Refusal :=
  if 48 < bank then .fault .noSuchUnit else sendWrite s src (bankPage bank) (bankOff bank 0x4C) [wd (suse * 256 + schn)] false

/-- A write of FRESP (R137). -/
def execFrespCommit (src : Src) (bank : Nat) (w : Word) (s : State) : Host.Outcome State Fault Refusal :=
  if 48 < bank then .fault .noSuchUnit else sendWrite s src (bankPage bank) (bankOff bank 0x48) [w] false

/-- LCMD SAVE (R157). -/
def execLcmdSave (src : Src) (s : State) : Host.Outcome State Fault Refusal :=
  sendWrite s src pLIN 0xC0 [1#32] false

/-- LCMD LOAD (R157). -/
def execLcmdLoad (src : Src) (s : State) : Host.Outcome State Fault Refusal :=
  sendWrite s src pLIN 0xC0 [2#32] false

/-- LCMD DEFAULT (R157). -/
def execLcmdDefault (src : Src) (s : State) : Host.Outcome State Fault Refusal :=
  sendWrite s src pLIN 0xC0 [3#32] false

/-- A write of TESTT (R157). -/
def execTesttWrite (src : Src) (t : Word) (s : State) : Host.Outcome State Fault Refusal :=
  sendWrite s src pLIN 0xC8 [t] false

/-- MCMD SEAL (R162). -/
def execSeal (src : Src) (jumper : Bool) (s : State) : Host.Outcome State Fault Refusal :=
  sendWrite s src pMTR 0x40 [1#32] jumper

/-- MCMD UNSEAL (R164). -/
def execUnseal (src : Src) (jumper : Bool) (s : State) : Host.Outcome State Fault Refusal :=
  sendWrite s src pMTR 0x40 [2#32] jumper

/-- MCMD VERIFY; SEAL_N stays as last seen (R172). -/
def execVerify (src : Src) (s : State) : Host.Outcome State Fault Refusal :=
  sendWrite s src pMTR 0x40 [3#32] (flag s MTR.MSTAT_SEALN)

/-- CCMD HOLD on the context CSEL shows (R192). -/
def execCcmdHold (src : Src) (s : State) : Host.Outcome State Fault Refusal :=
  sendWrite s src pSTM 0x4C [1#32] false

/-- CCMD RESUME on the context CSEL shows (R192). -/
def execCcmdResume (src : Src) (s : State) : Host.Outcome State Fault Refusal :=
  sendWrite s src pSTM 0x4C [2#32] false

/-- CCMD CLOSE on the context CSEL shows (R179, R192). -/
def execCcmdClose (src : Src) (s : State) : Host.Outcome State Fault Refusal :=
  sendWrite s src pSTM 0x4C [3#32] false

/-- QCMD FLUSH of the queue QSEL shows (R210). -/
def execQcmdFlush (src : Src) (s : State) : Host.Outcome State Fault Refusal :=
  sendWrite s src pQUE 0x70 [1#32] false

/-- CDCMD ECLEAR (R228). -/
def execCdcmdEclear (src : Src) (eng : Nat) (s : State) : Host.Outcome State Fault Refusal :=
  if 3 < eng then .fault .noSuchUnit else sendWrite s src pCDC 0x40 [wd (eng * 256 + 1)] false

/-- CDCMD ETEST (R228). -/
def execCdcmdEtest (src : Src) (eng : Nat) (s : State) : Host.Outcome State Fault Refusal :=
  if 3 < eng then .fault .noSuchUnit else sendWrite s src pCDC 0x40 [wd (eng * 256 + 2)] false

/-- A write of ECTL.BYP (R228). -/
def execEctlByp (src : Src) (byp : Nat) (s : State) : Host.Outcome State Fault Refusal :=
  sendWrite s src pCDC 0x44 [wd byp] false

/-- XCMD SNAP on the context XSEL shows (R232). -/
def execXcmdSnap (src : Src) (s : State) : Host.Outcome State Fault Refusal :=
  sendWrite s src pCTX 0x44 [1#32] false

/-- XCMD RESTORE on the context XSEL shows (R232). -/
def execXcmdRestore (src : Src) (s : State) : Host.Outcome State Fault Refusal :=
  sendWrite s src pCTX 0x44 [2#32] false

/-- XCMD CLEAR on the context XSEL shows (R232). -/
def execXcmdClear (src : Src) (s : State) : Host.Outcome State Fault Refusal :=
  sendWrite s src pCTX 0x44 [3#32] false

/-- DCMD SUBMIT in one burst with DSC0–DSC7 (R235). -/
def execDcmdSubmit (src : Src) (dsc : List Word) (s : State) : Host.Outcome State Fault Refusal :=
  sendWrite s src pCDC 0x80 ((dsc ++ List.replicate 8 0#32).take 8 ++ [1#32]) false

/-- DCMD RESUME (R236). -/
def execDcmdResume (src : Src) (job : Nat) (s : State) : Host.Outcome State Fault Refusal :=
  if 15 < job then .fault .noSuchUnit else sendWrite s src pCDC 0xA0 [wd (job * 65536 + 2)] false

/-- DCMD ABORT (R237). -/
def execDcmdAbort (src : Src) (job : Nat) (s : State) : Host.Outcome State Fault Refusal :=
  if 15 < job then .fault .noSuchUnit else sendWrite s src pCDC 0xA0 [wd (job * 65536 + 3)] false

/-- DCMD RELEASE (R237). -/
def execDcmdRelease (src : Src) (job : Nat) (s : State) : Host.Outcome State Fault Refusal :=
  if 15 < job then .fault .noSuchUnit else sendWrite s src pCDC 0xA0 [wd (job * 65536 + 4)] false

/-- TCMD SET (R261). -/
def execTcmdSet (src : Src) (s : State) : Host.Outcome State Fault Refusal :=
  sendWrite s src pTSU 0x70 [1#32] false

/-- TCMD STEP (R261). -/
def execTcmdStep (src : Src) (s : State) : Host.Outcome State Fault Refusal :=
  sendWrite s src pTSU 0x70 [2#32] false

/-- TCMD PSACK (R274). -/
def execTcmdPsack (src : Src) (s : State) : Host.Outcome State Fault Refusal :=
  sendWrite s src pTSU 0x70 [3#32] false

/-- A write of INCLO and INCHI in one burst (R260). -/
def execIncrement (src : Src) (inc : Nat) (s : State) : Host.Outcome State Fault Refusal :=
  sendWrite s src pTSU 0x48 [wd inc, wd (inc / 2 ^ 32)] false

/-- A write of ASYM (R274). -/
def execAsymWrite (src : Src) (a : Word) (s : State) : Host.Outcome State Fault Refusal :=
  sendWrite s src pTSU 0x98 [a] false

/-- A write of ECFG.MODE (R268). -/
def execEcfgMode (src : Src) (mode : Nat) (s : State) : Host.Outcome State Fault Refusal :=
  sendWrite s src pETH 0x40 [wd mode] false

/-- LCMD TRAIN of a trunk port (R300). -/
def execLcmdTrain (src : Src) (port : Nat) (s : State) : Host.Outcome State Fault Refusal :=
  if 1 < port then .fault .noSuchUnit else sendWrite s src (pTKE + port) 0x40 [1#32] false

/-- LCMD STOP of a trunk port (R300). -/
def execLcmdStop (src : Src) (port : Nat) (s : State) : Host.Outcome State Fault Refusal :=
  if 1 < port then .fault .noSuchUnit else sendWrite s src (pTKE + port) 0x40 [2#32] false

/-- LCMD TEST of a trunk port (R300). -/
def execLcmdTest (src : Src) (port : Nat) (s : State) : Host.Outcome State Fault Refusal :=
  if 1 < port then .fault .noSuchUnit else sendWrite s src (pTKE + port) 0x40 [3#32] false

/-- LCMD LRETRY of a trunk port (R294). -/
def execLcmdLretry (src : Src) (port : Nat) (s : State) : Host.Outcome State Fault Refusal :=
  if 1 < port then .fault .noSuchUnit else sendWrite s src (pTKE + port) 0x40 [4#32] false

/-- ACMD INSTALL (R305). -/
def execAcmdInstall (src : Src) (good : Bool) (s : State) : Host.Outcome State Fault Refusal :=
  sendWrite s src pDOM 0x60 [1#32] good

/-- ACMD REWIND (R315). -/
def execAcmdRewind (src : Src) (s : State) : Host.Outcome State Fault Refusal :=
  sendWrite s src pDOM 0x60 [2#32] false

/-- TCMD ISOLATE of page TWL (R346). -/
def execTwlIsolate (src : Src) (s : State) : Host.Outcome State Fault Refusal :=
  sendWrite s src pTWL 0x40 [1#32] false

/-- TCMD REJOIN of page TWL (R346). -/
def execTwlRejoin (src : Src) (s : State) : Host.Outcome State Fault Refusal :=
  sendWrite s src pTWL 0x40 [2#32] false

/-- TCMD RELEASE of page TWL (R346). -/
def execTwlRelease (src : Src) (s : State) : Host.Outcome State Fault Refusal :=
  sendWrite s src pTWL 0x40 [3#32] false

/-- TCMD RESYNC of page TWL (R336). -/
def execTwlResync (src : Src) (s : State) : Host.Outcome State Fault Refusal :=
  sendWrite s src pTWL 0x40 [4#32] false

/-- PCMD RESTART (R352). -/
def execPcmdRestart (src : Src) (proc : Nat) (s : State) : Host.Outcome State Fault Refusal :=
  if 3 < proc then .fault .noSuchUnit else sendWrite s src pMGT 0x40 [wd (proc * 16 + 1)] false

/-- SCMD INSTALL (R356). -/
def execScmdInstall (src : Src) (s : State) : Host.Outcome State Fault Refusal :=
  sendWrite s src pSEC 0x40 [1#32] false

/-- SCMD ENDORSE (R357). -/
def execScmdEndorse (src : Src) (good : Bool) (s : State) : Host.Outcome State Fault Refusal :=
  sendWrite s src pSEC 0x40 [2#32] good

/-- SCMD TRANSFER (R357). -/
def execScmdTransfer (src : Src) (good : Bool) (s : State) : Host.Outcome State Fault Refusal :=
  sendWrite s src pSEC 0x40 [3#32] good

/-- SCMD RELEASE (R356). -/
def execScmdRelease (src : Src) (s : State) : Host.Outcome State Fault Refusal :=
  sendWrite s src pSEC 0x40 [4#32] false

/-- SCMD STREAM (R363). -/
def execScmdStream (src : Src) (s : State) : Host.Outcome State Fault Refusal :=
  sendWrite s src pSEC 0x40 [5#32] false

/-- SCMD CLOSE (R370). -/
def execScmdClose (src : Src) (sid : Nat) (s : State) : Host.Outcome State Fault Refusal :=
  if 7 < sid then .fault .noSuchUnit else sendWrite s src pSEC 0x40 [wd (sid * 256 + 6)] false

/-- SCMD MKCHAL (R365). -/
def execScmdMkchal (src : Src) (s : State) : Host.Outcome State Fault Refusal :=
  sendWrite s src pSEC 0x40 [7#32] false

/-- SCMD MKUNLOCK (R366). -/
def execScmdMkunlock (src : Src) (good : Bool) (s : State) : Host.Outcome State Fault Refusal :=
  sendWrite s src pSEC 0x40 [8#32] good

/-- SCMD RETREC (R367). -/
def execScmdRetrec (src : Src) (s : State) : Host.Outcome State Fault Refusal :=
  sendWrite s src pSEC 0x40 [9#32] false

/-- UCMD OPEN with ULEN in one burst (R377). -/
def execUcmdOpen (src : Src) (ulen : Nat) (s : State) : Host.Outcome State Fault Refusal :=
  sendWrite s src pUPD 0x40 [1#32, 0#32, wd ulen] false

/-- UCMD CHECK (R378). -/
def execUcmdCheck (src : Src) (s : State) : Host.Outcome State Fault Refusal :=
  sendWrite s src pUPD 0x40 [2#32] false

/-- UCMD INSTALL (R380). -/
def execUcmdInstall (src : Src) (s : State) : Host.Outcome State Fault Refusal :=
  sendWrite s src pUPD 0x40 [3#32] false

/-- UCMD CLOSE (R377). -/
def execUcmdClose (src : Src) (s : State) : Host.Outcome State Fault Refusal :=
  sendWrite s src pUPD 0x40 [4#32] false

/-- A write of PDEN (R396). -/
def execPdenWrite (src : Src) (w : Word) (s : State) : Host.Outcome State Fault Refusal :=
  sendWrite s src pPWR 0x44 [w] false

/-- SUCMD SAVE (R401). -/
def execSucmdSave (src : Src) (s : State) : Host.Outcome State Fault Refusal :=
  sendWrite s src pPWR 0x40 [1#32] false

/-- SUCMD CLEAR (R401). -/
def execSucmdClear (src : Src) (s : State) : Host.Outcome State Fault Refusal :=
  sendWrite s src pPWR 0x40 [2#32] false

end Sys2Proof.Machine
end

