-- ==== Sys2Proof/Machine/Dispatch.lean ====
section
/-! DEFINITION. Dispatch: one arm per command, each one direct call of its meaning. -/

namespace Sys2Proof.Machine

/-- The effect of a command on everything but the queue. -/
def exec (i : Instr) (s : State) : Host.Outcome State Fault Refusal :=
  match i with
  | .writeBurst src addr ws good => Sys2Proof.Machine.execWriteBurst src addr ws good s
  | .readBurst src addr req => Sys2Proof.Machine.execReadBurst src addr req s
  | .notice sid page => Sys2Proof.Machine.execNotice sid page s
  | .softReset src page => Sys2Proof.Machine.execSoftReset src page s
  | .enable src page on => Sys2Proof.Machine.execEnable src page on s
  | .mainsCrossing t phase => Sys2Proof.Machine.execMainsCrossing t phase s
  | .mlost => Sys2Proof.Machine.execMlost s
  | .encoderEdge a b t => Sys2Proof.Machine.execEncoderEdge a b t s
  | .indexPulse t => Sys2Proof.Machine.execIndexPulse t s
  | .ssiFrame bits idle t => Sys2Proof.Machine.execSsiFrame bits idle t s
  | .ppsEdge t => Sys2Proof.Machine.execPpsEdge t s
  | .triggerEdge pad rise t => Sys2Proof.Machine.execTriggerEdge pad rise t s
  | .triggerWindowEnd ctx => Sys2Proof.Machine.execTriggerWindowEnd ctx s
  | .trgPulseEnd pad => Sys2Proof.Machine.execTrgPulseEnd pad s
  | .schCommit src => Sys2Proof.Machine.execSchCommit src s
  | .schAbandon src => Sys2Proof.Machine.execSchAbandon src s
  | .schStop src => Sys2Proof.Machine.execSchStop src s
  | .schClear src => Sys2Proof.Machine.execSchClear src s
  | .switch => Sys2Proof.Machine.execSwitch s
  | .openPoint entry => Sys2Proof.Machine.execOpenPoint entry s
  | .interpolatedSlot ctx t n codes => Sys2Proof.Machine.execInterpolatedSlot ctx t n codes s
  | .swapPoint entry => Sys2Proof.Machine.execSwapPoint entry s
  | .optpPoint entry => Sys2Proof.Machine.execOptpPoint entry s
  | .ckptPoint entry => Sys2Proof.Machine.execCkptPoint entry s
  | .stopPoint => Sys2Proof.Machine.execStopPoint s
  | .tableMemoryError live entry => Sys2Proof.Machine.execTableMemoryError live entry s
  | .tableFrame f => Sys2Proof.Machine.execTableFrame f s
  | .stopFrame f => Sys2Proof.Machine.execStopFrame f s
  | .bcmdStart src bank => Sys2Proof.Machine.execBcmdStart src bank s
  | .bcmdStop src bank => Sys2Proof.Machine.execBcmdStop src bank s
  | .bcmdTestin src bank => Sys2Proof.Machine.execBcmdTestin src bank s
  | .bcmdTestout src bank => Sys2Proof.Machine.execBcmdTestout src bank s
  | .routingDischarge bank => Sys2Proof.Machine.execRoutingDischarge bank s
  | .makeStep bank => Sys2Proof.Machine.execMakeStep bank s
  | .settleEnd ch pathE => Sys2Proof.Machine.execSettleEnd ch pathE s
  | .blankingWindow bank => Sys2Proof.Machine.execBlankingWindow bank s
  | .blankingEnd bank legs => Sys2Proof.Machine.execBlankingEnd bank legs s
  | .qopen bank quad tick => Sys2Proof.Machine.execQopen bank quad tick s
  | .qopenClear bank quad => Sys2Proof.Machine.execQopenClear bank quad s
  | .ovr ch => Sys2Proof.Machine.execOvr ch s
  | .ovrClear ch => Sys2Proof.Machine.execOvrClear ch s
  | .bds bank => Sys2Proof.Machine.execBds bank s
  | .bdsEnd bank => Sys2Proof.Machine.execBdsEnd bank s
  | .qilim bank quad => Sys2Proof.Machine.execQilim bank quad s
  | .ilimEnd bank quad => Sys2Proof.Machine.execIlimEnd bank quad s
  | .qidev bank quad => Sys2Proof.Machine.execQidev bank quad s
  | .bankFault bank => Sys2Proof.Machine.execBankFault bank s
  | .alloff src => Sys2Proof.Machine.execAlloff src s
  | .drvflt => Sys2Proof.Machine.execDrvflt s
  | .ocmdStart src port => Sys2Proof.Machine.execOcmdStart src port s
  | .ocmdStop src port => Sys2Proof.Machine.execOcmdStop src port s
  | .ocmdClear src port => Sys2Proof.Machine.execOcmdClear src port s
  | .ocmdGclear src grp => Sys2Proof.Machine.execOcmdGclear src grp s
  | .boostReady port => Sys2Proof.Machine.execBoostReady port s
  | .boost => Sys2Proof.Machine.execBoost s
  | .pwmPeriod port monA monB iA iB vfA vfB => Sys2Proof.Machine.execPwmPeriod port monA monB iA iB vfA vfB s
  | .pmfsLearn port colB reading => Sys2Proof.Machine.execPmfsLearn port colB reading s
  | .mondev port colB => Sys2Proof.Machine.execMondev port colB s
  | .mondevClear port colB => Sys2Proof.Machine.execMondevClear port colB s
  | .opwrlim pwr => Sys2Proof.Machine.execOpwrlim pwr s
  | .opwrlimEnd => Sys2Proof.Machine.execOpwrlimEnd s
  | .pfault port string => Sys2Proof.Machine.execPfault port string s
  | .probe port => Sys2Proof.Machine.execProbe port s
  | .diagBlind port => Sys2Proof.Machine.execDiagBlind port s
  | .blindTimeout port => Sys2Proof.Machine.execBlindTimeout port s
  | .selfCheck dom good vals => Sys2Proof.Machine.execSelfCheck dom good vals s
  | .ecoChange group => Sys2Proof.Machine.execEcoChange group s
  | .spareWrite src bank suse schn => Sys2Proof.Machine.execSpareWrite src bank suse schn s
  | .rotationPhase bank avg => Sys2Proof.Machine.execRotationPhase bank avg s
  | .dieTempUpdate temps => Sys2Proof.Machine.execDieTempUpdate temps s
  | .frespCommit src bank w => Sys2Proof.Machine.execFrespCommit src bank w s
  | .pathMOutput ch g bits => Sys2Proof.Machine.execPathMOutput ch g bits s
  | .pathESample n bits => Sys2Proof.Machine.execPathESample n bits s
  | .romCheck good => Sys2Proof.Machine.execRomCheck good s
  | .tstale ch => Sys2Proof.Machine.execTstale ch s
  | .evalTest good => Sys2Proof.Machine.execEvalTest good s
  | .lcmdSave src => Sys2Proof.Machine.execLcmdSave src s
  | .lcmdSaveDone => Sys2Proof.Machine.execLcmdSaveDone s
  | .lcmdLoad src => Sys2Proof.Machine.execLcmdLoad src s
  | .lcmdDefault src => Sys2Proof.Machine.execLcmdDefault src s
  | .testtWrite src t => Sys2Proof.Machine.execTesttWrite src t s
  | .seal src jumper => Sys2Proof.Machine.execSeal src jumper s
  | .sealed => Sys2Proof.Machine.execSealed s
  | .sealfail => Sys2Proof.Machine.execSealfail s
  | .unseal src jumper => Sys2Proof.Machine.execUnseal src jumper s
  | .unsealed => Sys2Proof.Machine.execUnsealed s
  | .verify src => Sys2Proof.Machine.execVerify src s
  | .lidOpen => Sys2Proof.Machine.execLidOpen s
  | .pdigCheck => Sys2Proof.Machine.execPdigCheck s
  | .itemCheck good => Sys2Proof.Machine.execItemCheck good s
  | .metroCheckpoint ctx => Sys2Proof.Machine.execMetroCheckpoint ctx s
  | .reloadRetry good => Sys2Proof.Machine.execReloadRetry good s
  | .ccmdHold src => Sys2Proof.Machine.execCcmdHold src s
  | .ccmdResume src => Sys2Proof.Machine.execCcmdResume src s
  | .ccmdClose src => Sys2Proof.Machine.execCcmdClose src s
  | .deviceCheckpoint ctx => Sys2Proof.Machine.execDeviceCheckpoint ctx s
  | .asmerr => Sys2Proof.Machine.execAsmerr s
  | .itemWrite ctx => Sys2Proof.Machine.execItemWrite ctx s
  | .holdto ctx => Sys2Proof.Machine.execHoldto ctx s
  | .descriptorError => Sys2Proof.Machine.execDescriptorError s
  | .pop src off bad => Sys2Proof.Machine.execPop src off bad s
  | .qcmdFlush src => Sys2Proof.Machine.execQcmdFlush src s
  | .flushed q => Sys2Proof.Machine.execFlushed q s
  | .itemTake ctx bad => Sys2Proof.Machine.execItemTake ctx bad s
  | .blockRelease ctx mismatch => Sys2Proof.Machine.execBlockRelease ctx mismatch s
  | .cdcmdEclear src eng => Sys2Proof.Machine.execCdcmdEclear src eng s
  | .cdcmdEtest src eng => Sys2Proof.Machine.execCdcmdEtest src eng s
  | .etestDone eng pass => Sys2Proof.Machine.execEtestDone eng pass s
  | .ectlByp src byp => Sys2Proof.Machine.execEctlByp src byp s
  | .engineTest eng pass => Sys2Proof.Machine.execEngineTest eng pass s
  | .contextSramError => Sys2Proof.Machine.execContextSramError s
  | .xcmdSnap src => Sys2Proof.Machine.execXcmdSnap src s
  | .xcmdRestore src => Sys2Proof.Machine.execXcmdRestore src s
  | .xcmdClear src => Sys2Proof.Machine.execXcmdClear src s
  | .dcmdSubmit src dsc => Sys2Proof.Machine.execDcmdSubmit src dsc s
  | .dcmdResume src job => Sys2Proof.Machine.execDcmdResume src job s
  | .dcmdAbort src job => Sys2Proof.Machine.execDcmdAbort src job s
  | .dcmdRelease src job => Sys2Proof.Machine.execDcmdRelease src job s
  | .jobStart job => Sys2Proof.Machine.execJobStart job s
  | .ddone job => Sys2Proof.Machine.execDdone job s
  | .dstop job => Sys2Proof.Machine.execDstop job s
  | .derr job mem => Sys2Proof.Machine.execDerr job mem s
  | .ack port pos unit ctx seq => Sys2Proof.Machine.execAck port pos unit ctx seq s
  | .resend port pos unit ctx seq => Sys2Proof.Machine.execResend port pos unit ctx seq s
  | .egressSend mem => Sys2Proof.Machine.execEgressSend mem s
  | .gapRecordStore ctx => Sys2Proof.Machine.execGapRecordStore ctx s
  | .scrub corr unc => Sys2Proof.Machine.execScrub corr unc s
  | .canvasFault => Sys2Proof.Machine.execCanvasFault s
  | .tcmdSet src => Sys2Proof.Machine.execTcmdSet src s
  | .tcmdStep src => Sys2Proof.Machine.execTcmdStep src s
  | .tcmdPsack src => Sys2Proof.Machine.execTcmdPsack src s
  | .increment src inc => Sys2Proof.Machine.execIncrement src inc s
  | .servo inc ofs fofs => Sys2Proof.Machine.execServo inc ofs fofs s
  | .sourceQualify code => Sys2Proof.Machine.execSourceQualify code s
  | .sourceLost code => Sys2Proof.Machine.execSourceLost code s
  | .refinCount n => Sys2Proof.Machine.execRefinCount n s
  | .ptpRx kind latch => Sys2Proof.Machine.execPtpRx kind latch s
  | .ptpTx msg latch corr => Sys2Proof.Machine.execPtpTx msg latch corr s
  | .delayExchange mpd ofs => Sys2Proof.Machine.execDelayExchange mpd ofs s
  | .holdoff => Sys2Proof.Machine.execHoldoff s
  | .asymWrite src a => Sys2Proof.Machine.execAsymWrite src a s
  | .xdiff => Sys2Proof.Machine.execXdiff s
  | .ecfgMode src mode => Sys2Proof.Machine.execEcfgMode src mode s
  | .ethLinkUp => Sys2Proof.Machine.execEthLinkUp s
  | .ethLinkDown => Sys2Proof.Machine.execEthLinkDown s
  | .lcmdTrain src port => Sys2Proof.Machine.execLcmdTrain src port s
  | .lcmdStop src port => Sys2Proof.Machine.execLcmdStop src port s
  | .lcmdTest src port => Sys2Proof.Machine.execLcmdTest src port s
  | .lcmdLretry src port => Sys2Proof.Machine.execLcmdLretry src port s
  | .trainingFrame link lane sym => Sys2Proof.Machine.execTrainingFrame link lane sym s
  | .fcokTimeout link => Sys2Proof.Machine.execFcokTimeout link s
  | .rrdy link => Sys2Proof.Machine.execRrdy link s
  | .linkup link lanes us => Sys2Proof.Machine.execLinkup link lanes us s
  | .trnfail link => Sys2Proof.Machine.execTrnfail link s
  | .bringupRetry link => Sys2Proof.Machine.execBringupRetry link s
  | .codeword link lane lv => Sys2Proof.Machine.execCodeword link lane lv s
  | .zlpFrame link fk flen ws => Sys2Proof.Machine.execZlpFrame link fk flen ws s
  | .caps link maxf ver => Sys2Proof.Machine.execCaps link maxf ver s
  | .time link part dir ref val => Sys2Proof.Machine.execTime link part dir ref val s
  | .transportNop link => Sys2Proof.Machine.execTransportNop link s
  | .linkNop link => Sys2Proof.Machine.execLinkNop link s
  | .lack link csn => Sys2Proof.Machine.execLack link csn s
  | .nak link csn => Sys2Proof.Machine.execNak link csn s
  | .ldrop link lanes lost frm => Sys2Proof.Machine.execLdrop link lanes lost frm s
  | .ladd link lanes => Sys2Proof.Machine.execLadd link lanes s
  | .lmask link lanes q => Sys2Proof.Machine.execLmask link lanes q s
  | .ltrn link lane req stat => Sys2Proof.Machine.execLtrn link lane req stat s
  | .clklost link => Sys2Proof.Machine.execClklost link s
  | .clkfallback link => Sys2Proof.Machine.execClkfallback link s
  | .lnkto link => Sys2Proof.Machine.execLnkto link s
  | .lanedn link lane frm => Sys2Proof.Machine.execLanedn link lane frm s
  | .laneReady link lane => Sys2Proof.Machine.execLaneReady link lane s
  | .retrainTimeout link lane => Sys2Proof.Machine.execRetrainTimeout link lane s
  | .margin link mv => Sys2Proof.Machine.execMargin link mv s
  | .quiet link => Sys2Proof.Machine.execQuiet link s
  | .quietExit link => Sys2Proof.Machine.execQuietExit link s
  | .quietRestore link => Sys2Proof.Machine.execQuietRestore link s
  | .lanePllFail link => Sys2Proof.Machine.execLanePllFail link s
  | .acmdInstall src good => Sys2Proof.Machine.execAcmdInstall src good s
  | .acmdRewind src => Sys2Proof.Machine.execAcmdRewind src s
  | .authorityFrame port did agen pos rec => Sys2Proof.Machine.execAuthorityFrame port did agen pos rec s
  | .beacon port hpos agen hops topog => Sys2Proof.Machine.execBeacon port hpos agen hops topog s
  | .beaconSend => Sys2Proof.Machine.execBeaconSend s
  | .coll port hops relay => Sys2Proof.Machine.execColl port hops relay s
  | .topo port topog pos cause => Sys2Proof.Machine.execTopo port topog pos cause s
  | .credit port cred srcs => Sys2Proof.Machine.execCredit port cred srcs s
  | .creditSend port => Sys2Proof.Machine.execCreditSend port s
  | .tdist port oup hops => Sys2Proof.Machine.execTdist port oup hops s
  | .tdistSend port => Sys2Proof.Machine.execTdistSend port s
  | .report port pos unit reason epoch => Sys2Proof.Machine.execReport port pos unit reason epoch s
  | .island => Sys2Proof.Machine.execIsland s
  | .cand port pos prehops topog => Sys2Proof.Machine.execCand port pos prehops topog s
  | .candSend => Sys2Proof.Machine.execCandSend s
  | .keeper => Sys2Proof.Machine.execKeeper s
  | .tkeep port pos topog hops => Sys2Proof.Machine.execTkeep port pos topog hops s
  | .rejoin => Sys2Proof.Machine.execRejoin s
  | .twlIsolate src => Sys2Proof.Machine.execTwlIsolate src s
  | .twlRejoin src => Sys2Proof.Machine.execTwlRejoin src s
  | .twlRelease src => Sys2Proof.Machine.execTwlRelease src s
  | .twlResync src => Sys2Proof.Machine.execTwlResync src s
  | .paired pos unit oshr good ogen maxf role legal => Sys2Proof.Machine.execPaired pos unit oshr good ogen maxf role legal s
  | .pairingTimeout volts => Sys2Proof.Machine.execPairingTimeout volts s
  | .role code unit cgen => Sys2Proof.Machine.execRole code unit cgen s
  | .roleSend => Sys2Proof.Machine.execRoleSend s
  | .health w => Sys2Proof.Machine.execHealth w s
  | .healthSend => Sys2Proof.Machine.execHealthSend s
  | .pause => Sys2Proof.Machine.execPause s
  | .resume => Sys2Proof.Machine.execResume s
  | .pauseExpiry => Sys2Proof.Machine.execPauseExpiry s
  | .fail cls => Sys2Proof.Machine.execFail cls s
  | .ownFailure cls => Sys2Proof.Machine.execOwnFailure cls s
  | .summary k chans => Sys2Proof.Machine.execSummary k chans s
  | .summarySend k => Sys2Proof.Machine.execSummarySend k s
  | .checkpointCut => Sys2Proof.Machine.execCheckpointCut s
  | .checkpointFrame f => Sys2Proof.Machine.execCheckpointFrame f s
  | .twinLinkLost => Sys2Proof.Machine.execTwinLinkLost s
  | .hbviol => Sys2Proof.Machine.execHbviol s
  | .takeover => Sys2Proof.Machine.execTakeover s
  | .foreign => Sys2Proof.Machine.execForeign s
  | .pcmdRestart src proc => Sys2Proof.Machine.execPcmdRestart src proc s
  | .watchdog proc => Sys2Proof.Machine.execWatchdog proc s
  | .sensorSample temps rails ve ie vw iw moist => Sys2Proof.Machine.execSensorSample temps rails ve ie vw iw moist s
  | .sessionOpen path m => Sys2Proof.Machine.execSessionOpen path m s
  | .confirm sid good => Sys2Proof.Machine.execConfirm sid good s
  | .sessfail sid => Sys2Proof.Machine.execSessfail sid s
  | .subscribe sid tseq page val => Sys2Proof.Machine.execSubscribe sid tseq page val s
  | .keepAlive sid tseq => Sys2Proof.Machine.execKeepAlive sid tseq s
  | .close sid tseq => Sys2Proof.Machine.execClose sid tseq s
  | .sessionTimeout sid => Sys2Proof.Machine.execSessionTimeout sid s
  | .scmdInstall src => Sys2Proof.Machine.execScmdInstall src s
  | .scmdEndorse src good => Sys2Proof.Machine.execScmdEndorse src good s
  | .scmdTransfer src good => Sys2Proof.Machine.execScmdTransfer src good s
  | .scmdRelease src => Sys2Proof.Machine.execScmdRelease src s
  | .ownchg => Sys2Proof.Machine.execOwnchg s
  | .scmdStream src => Sys2Proof.Machine.execScmdStream src s
  | .secretExpiry => Sys2Proof.Machine.execSecretExpiry s
  | .scmdClose src sid => Sys2Proof.Machine.execScmdClose src sid s
  | .scmdMkchal src => Sys2Proof.Machine.execScmdMkchal src s
  | .scmdMkunlock src good => Sys2Proof.Machine.execScmdMkunlock src good s
  | .scmdRetrec src => Sys2Proof.Machine.execScmdRetrec src s
  | .ucmdOpen src ulen => Sys2Proof.Machine.execUcmdOpen src ulen s
  | .ucmdCheck src => Sys2Proof.Machine.execUcmdCheck src s
  | .checkDone facts => Sys2Proof.Machine.execCheckDone facts s
  | .ucmdInstall src => Sys2Proof.Machine.execUcmdInstall src s
  | .ucmdClose src => Sys2Proof.Machine.execUcmdClose src s
  | .regionErased proc => Sys2Proof.Machine.execRegionErased proc s
  | .containerWritten proc => Sys2Proof.Machine.execContainerWritten proc s
  | .readback proc good => Sys2Proof.Machine.execReadback proc good s
  | .boot proc found swdig => Sys2Proof.Machine.execBoot proc found swdig s
  | .attach hs => Sys2Proof.Machine.execAttach hs s
  | .detach => Sys2Proof.Machine.execDetach s
  | .supplySample v idx => Sys2Proof.Machine.execSupplySample v idx s
  | .levelStepUp => Sys2Proof.Machine.execLevelStepUp s
  | .xchg => Sys2Proof.Machine.execXchg s
  | .uvlo => Sys2Proof.Machine.execUvlo s
  | .powerOn found => Sys2Proof.Machine.execPowerOn found s
  | .rstN => Sys2Proof.Machine.execRstN s
  | .pllLoss pll => Sys2Proof.Machine.execPllLoss pll s
  | .rail idx => Sys2Proof.Machine.execRail idx s
  | .portchg port above => Sys2Proof.Machine.execPortchg port above s
  | .inrushEnd port => Sys2Proof.Machine.execInrushEnd port s
  | .ptoc => Sys2Proof.Machine.execPtoc s
  | .ptProbe ohms => Sys2Proof.Machine.execPtProbe ohms s
  | .pdenWrite src w => Sys2Proof.Machine.execPdenWrite src w s
  | .domainPowerGood dom => Sys2Proof.Machine.execDomainPowerGood dom s
  | .sucmdSave src => Sys2Proof.Machine.execSucmdSave src s
  | .sucmdSaveDone => Sys2Proof.Machine.execSucmdSaveDone s
  | .sucmdClear src => Sys2Proof.Machine.execSucmdClear src s
  | .rearm => Sys2Proof.Machine.execRearm s
  | .sudone ms => Sys2Proof.Machine.execSudone ms s
  | .announce id => Sys2Proof.Machine.execAnnounce id s
  | .hbtoExpiry port coll => Sys2Proof.Machine.execHbtoExpiry port coll s
  | .hostConfigured on => Sys2Proof.Machine.execHostConfigured on s
  | .lcmdLoadDone => Sys2Proof.Machine.execLcmdLoadDone s
  | .verifyDone => Sys2Proof.Machine.execVerifyDone s

end Sys2Proof.Machine
end

