-- ==== Sys2Proof/Machine/Step.lean ====
section
/-! DEFINITION. One step of the block: the command at the front of the queue, or one CCLK cycle while no command waits. -/

namespace Sys2Proof.Machine

/-- Take the command at the front of the queue and answer its outcome on the queue's rest; on an empty queue one CCLK cycle
passes. -/
def step (s : State) : Host.Outcome State Fault Refusal :=
  match s.pending with
  | [] => .next (idleStep s)
  | i :: rest => exec i { s with pending := rest }

/-- The state with the command that the word spells put at the front of the queue; unchanged where it spells none. -/
def State.withFetchWord (s : State) (nbits w : Nat) : State :=
  match decodeTableWord nbits w with
  | none => s
  | some i => { s with pending := i :: s.pending }

end Sys2Proof.Machine
end

