-- ==== Sys2Proof/Safety.lean ====
section
/-! DEFINITION. What counts as a safe run, and the terms the statements are written in: the canonical form of CANVAS, a command that
answers, what stays the same, and a message that is taken and a burst that no rule rejects. -/

namespace Sys2Proof.Machine

/-- The CANVAS bytes are in canonical form: addresses rise strictly and no listed byte is the one an unlisted address reads as. -/
def memWf (m : List Host.Cell) : Bool := rising m && m.all fun e => e.2 != 0

/-- The command runs: it answers a next state, and that state meets `P`. -/
abbrev Answers (i : Instr) (s : State) (P : State → Prop) : Prop := ∃ t, exec i s = .next t ∧ P t

/-- An event bit of a page (R35). -/
abbrev evt (s : State) (page i : Nat) : Bool := bit (get s (hPEVT page)) i

/-- Every field of the register window is unchanged but those of a list. -/
def sameRegs (s t : State) (fs : List Fld) : Prop := ∀ f : Fld, (∀ g ∈ fs, f.code ≠ g.code) → get t f = get s f

/-- Every byte of CANVAS reads as before. -/
def sameMem (s t : State) : Prop := ∀ a, memGet t a = memGet s a

/-- A state without what raising an event touches: the register file, the general log and its free values, and the notices due in
sessions (R35, R354). -/
def unlogged (s : State) : State :=
  { s with regs := [], log := [], fresh := 0, sessions := s.sessions.map fun e => (e.1, e.2.map fun x => { x with due := [] }) }

/-- A state without that, and without sessions, links and what left the hub: what a message leaves alone that only asks or is turned away. -/
def inside (s : State) : State := { unlogged s with sessions := [], out := [], links := [] }

/-- Whether a source's replies leave over a trunk port (R25, R362). -/
def overZlp (s : State) : Src → Bool
  | .session sid _ => (session s sid).any fun x => x.path = .zlp
  | _ => false

/-- Nothing inside the hub has changed; the links have not either, unless a reply has left over one. -/
def Untouched (s t : State) (src : Src) : Prop := inside t = inside s ∧ (overZlp s src = false → t.links = s.links)

/-- A state without that, and without links and what left the hub: what sending a message or a frame leaves alone. -/
def offWire (s : State) : State := { unlogged s with links := [], out := [] }

/-- Something left the hub in this step. -/
def Sent (s t : State) (o : Out) : Prop := o ∈ t.out.drop s.out.length

/-- A transport message with this type and body left on a link, if it runs (R310). -/
def Told (s t : State) (l type body : Nat) : Prop := linkRuns s l = true → Sent s t (.transport l type (body % 2 ^ 44))

/-- The fields an event of a page may write: PEVT of the page, and of MGT, whose log may wrap (R35, R354). -/
abbrev evts (page : Nat) : List Fld := [hPEVT page, hPEVT pMGT]

/-- The fields a change of a page's state may write (R38). -/
abbrev sts (page : Nat) : List Fld := hSTATE page :: evts page

/-- The fields an event of a link may write: those of its page; the twin link has none (R301, R328). -/
abbrev linkEvts (l : Nat) : List Fld := if l < 2 then evts (pTKE + l) else []

/-- The pages a link's going up or down may write: its own, the other port's, which carries the news, and DOM and TSU through the topology and
trunk time (R264, R292, R309). -/
abbrev linkPages (l : Nat) : List Nat := if l < 2 then [pTKE, pTKW, pDOM, pTSU, pMGT] else []

/-- The pages a change of role may write: its own, headship and the time source, the quads and the strings (R18, R58, R60, R108, R346). -/
abbrev rolePages : List Nat := [pTWL, pDOM, pTSU, pEXC, pOPT, pMGT] ++ (List.range 48).map (0x10 + ·)

/-- No quad drives and no string is lit (R327). -/
def Dark (t : State) : Prop := (∀ n < 48, ∀ q < 4, get t (BNK.QSTAT_ON n q) = 0) ∧ ∀ p < 16, (oport t p).lit = 0

/-- Every field of the register window off some pages is unchanged. -/
def sameOff (s t : State) (pages : List Nat) : Prop := ∀ f : Fld, ¬ pages.contains (codePage f.code) → get t f = get s f

/-- Every field of the register window is unchanged but those of a list and those of some pages. -/
def sameBut (s t : State) (fs : List Fld) (pages : List Nat) : Prop :=
  ∀ f : Fld, ¬ pages.contains (codePage f.code) → (∀ g ∈ fs, f.code ≠ g.code) → get t f = get s f

/-- The state in which a session's message is judged: its session has been heard, and its path counts one frame more (R361, R386). -/
def arrived (s : State) (sid : Nat) (x : Session) : State :=
  countRx (setSession s sid (some { x with last := s.cyc })) x.path

/-- A message that reaches the window in its turn, with the state it is executed in: MGP runs, and it comes from MGP's firmware or from
an open session whose next TSEQ it bears and that has no later message waiting (R25, R361). -/
def Comes (s : State) (src : Src) (e : State) : Prop :=
  mgpRuns s = true ∧
  match src with
  | .mgp => e = s
  | .forged _ => False
  | .token _ _ => False
  | .session sid tseq =>
    ∃ x, session s sid = some x ∧ x.open_ = true ∧ x.next = tseq ∧ x.held = [] ∧ e = arrived s sid x

/-- A page's own access rules and every rule of its words let a write burst in (R41). -/
def admits (s : State) (src : Src) (page off : Nat) (ws : List Word) (good : Bool) : Bool :=
  (worst (violAccess s src page off ws.length true)).isNone && (worst (judge s src good page off ws).2).isNone

/-- A write burst that comes in its turn and that no rule rejects, with the state it is committed in (R28). -/
def Taken (s : State) (src : Src) (page off : Nat) (ws : List Word) (good : Bool) (e : State) : Prop :=
  Comes s src e ∧ admits e src page off ws good = true

/-- The last thing that left the hub is the reply to a session's message; MGP's firmware gets none (R42, R360). -/
def Replied (t : State) (src : Src) (status : Nat) (data : List Word) : Prop :=
  match src with
  | .mgp => True
  | .forged _ => True
  | .token _ _ => True
  | .session sid tseq => ∃ t1 ws, t.out.getLast? = some (.reply sid tseq ⟨status, data, t1⟩ ws)

/-- The counters that a message and its reply move: those of the service port (R386), and of a trunk port that carries a reply, at its replay
limit, the codewords sent again (R292). -/
abbrev svcs : List Fld := [SVC.SVRX_N, SVC.SVTX_N, TK.NREPL_N 0, TK.NREPL_N 1]

/-- A rejection stands on its page, and nothing else has changed but `also` (R42). -/
def Rejected (s t : State) (src : Src) (page : Nat) (v : Viol) (also : List Fld) : Prop :=
  get t (hREASON page) = v.1.code ∧ get t (hSRC page) = srcCode src % 16 ∧ get t (hOFFSET page) = v.2 % 4096 ∧
  get t (hREJCNT page) = min (get s (hREJCNT page) + 1) 65535 ∧ evt t page 0 = true ∧
  sameRegs s t (hREASON page :: hSRC page :: hOFFSET page :: hREJCNT page :: also ++ evts page ++ svcs) ∧ Untouched s t src

/-- An access that no page can record stands in DEV.XREJ, and nothing else has changed; `rej`: it sets DEV.PEVT.REJ (R33). -/
def RejectedX (s t : State) (src : Src) (page code : Nat) (rej : Bool) : Prop :=
  get t DEV.XREJ_REASON = code ∧ get t DEV.XREJ_SRC = srcCode src % 16 ∧ get t DEV.XREJ_PAGE = page % 4096 ∧
  get t DEV.XREJCNT_COUNT = min (get s DEV.XREJCNT_COUNT + 1) 65535 ∧ (rej = true → evt t pDEV 0 = true) ∧
  sameRegs s t (DEV.XREJ_REASON :: DEV.XREJ_SRC :: DEV.XREJ_PAGE :: DEV.XREJCNT_COUNT :: svcs ++ if rej then evts pDEV else []) ∧
  Untouched s t src

end Sys2Proof.Machine
end

