-- ==== Sys2Proof/WellFormed.lean ====
section
/-! DEFINITION. Which commands can be sent at all: every operand in the range its field or its instance has (R24, R27, R32 and the
page chapters). A command whose operand names an instance the hub does not have stops the block by name (`Fault.noSuchUnit`). -/

namespace Sys2Proof

/-- Words of a burst (R27, R360): 1 to 256. -/
def lenOk (n : Nat) : Bool := decide (1 ≤ n) && decide (n ≤ 256)

/-- Symbols of a codeword (R286, R287): 2,720 in PAM4, 5,440 in NRZ. -/
def cwOk (n : Nat) : Bool := n = 2720 || n = 5440

/-- Whether a command is well formed. -/
def Instr.wf (i : Instr) : Bool :=
  match i with
  | .writeBurst _ _ ws _ => lenOk ws.length
  | .readBurst _ _ req => lenOk req.count
  | .notice sid page => decide (sid < 8) && decide (page < 4096)
  | .softReset _ page => decide (page < 128)
  | .enable _ page _ => decide (page < 128)
  | .mainsCrossing _ _ => true
  | .mlost => true
  | .encoderEdge _ _ _ => true
  | .indexPulse _ => true
  | .ssiFrame _ _ _ => true
  | .ppsEdge _ => true
  | .triggerEdge pad _ _ => decide (pad < 8)
  | .triggerWindowEnd ctx => decide (ctx < 64)
  | .trgPulseEnd pad => decide (pad < 8)
  | .schCommit _ => true
  | .schAbandon _ => true
  | .schStop _ => true
  | .schClear _ => true
  | .switch => true
  | .openPoint entry => decide (entry < 256)
  | .interpolatedSlot ctx _ _ _ => decide (ctx < 64)
  | .swapPoint entry => decide (entry < 256)
  | .optpPoint entry => decide (entry < 256)
  | .ckptPoint entry => decide (entry < 256)
  | .stopPoint => true
  | .tableMemoryError _ entry => decide (entry < 256)
  | .tableFrame _ => true
  | .stopFrame _ => true
  | .bcmdStart _ bank => decide (bank < 49)
  | .bcmdStop _ bank => decide (bank < 49)
  | .bcmdTestin _ bank => decide (bank < 49)
  | .bcmdTestout _ bank => decide (bank < 49)
  | .routingDischarge bank => decide (bank < 49)
  | .makeStep bank => decide (bank < 49)
  | .settleEnd ch _ => decide (ch < 784)
  | .blankingWindow bank => decide (bank < 48)
  | .blankingEnd bank legs => decide (bank < 48) && decide (legs.length ≤ 16)
  | .qopen bank quad _ => decide (bank < 48) && decide (quad < 4)
  | .qopenClear bank quad => decide (bank < 48) && decide (quad < 4)
  | .ovr ch => decide (ch < 784)
  | .ovrClear ch => decide (ch < 784)
  | .bds bank => decide (bank < 48)
  | .bdsEnd bank => decide (bank < 48)
  | .qilim bank quad => decide (bank < 48) && decide (quad < 4)
  | .ilimEnd bank quad => decide (bank < 48) && decide (quad < 4)
  | .qidev bank quad => decide (bank < 48) && decide (quad < 4)
  | .bankFault bank => decide (bank < 49)
  | .alloff _ => true
  | .drvflt => true
  | .ocmdStart _ port => decide (port < 16)
  | .ocmdStop _ port => decide (port < 16)
  | .ocmdClear _ port => decide (port < 16)
  | .ocmdGclear _ grp => decide (grp < 16)
  | .boostReady port => decide (port < 16)
  | .boost => true
  | .pwmPeriod port _ _ _ _ _ _ => decide (port < 16)
  | .pmfsLearn port _ _ => decide (port < 16)
  | .mondev port _ => decide (port < 16)
  | .mondevClear port _ => decide (port < 16)
  | .opwrlim _ => true
  | .opwrlimEnd => true
  | .pfault port _ => decide (port < 16)
  | .probe port => decide (port < 16)
  | .diagBlind port => decide (port < 16)
  | .blindTimeout port => decide (port < 16)
  | .selfCheck dom _ vals => ((decide (3 ≤ dom) && decide (dom ≤ 8)) || decide (dom = 10)) && vals.all fun f => decide (f.modl < 833)
  | .ecoChange group => decide (group < 6)
  | .spareWrite _ bank suse schn => decide (bank < 49) && decide (suse < 4) && decide (schn < 16)
  | .rotationPhase bank _ => decide (bank < 49)
  | .dieTempUpdate temps => decide (temps.length = 6)
  | .frespCommit _ bank _ => decide (bank < 49)
  | .pathMOutput ch _ _ => decide (ch < 784)
  | .pathESample _ bits => decide (bits.length ≤ 784)
  | .romCheck _ => true
  | .tstale ch => decide (ch < 784)
  | .evalTest _ => true
  | .lcmdSave _ => true
  | .lcmdSaveDone => true
  | .lcmdLoad _ => true
  | .lcmdDefault _ => true
  | .testtWrite _ _ => true
  | .seal _ _ => true
  | .sealed => true
  | .sealfail => true
  | .unseal _ _ => true
  | .unsealed => true
  | .verify _ => true
  | .lidOpen => true
  | .pdigCheck => true
  | .itemCheck _ => true
  | .metroCheckpoint ctx => decide (ctx < 64)
  | .reloadRetry _ => true
  | .ccmdHold _ => true
  | .ccmdResume _ => true
  | .ccmdClose _ => true
  | .deviceCheckpoint ctx => decide (ctx < 64)
  | .asmerr => true
  | .itemWrite ctx => decide (ctx < 64)
  | .holdto ctx => decide (ctx < 64)
  | .descriptorError => true
  | .pop _ off _ => decide (off < 256)
  | .qcmdFlush _ => true
  | .flushed q => decide (64 ≤ q) && decide (q < 68)
  | .itemTake ctx _ => decide (ctx < 64)
  | .blockRelease ctx _ => decide (ctx < 64)
  | .cdcmdEclear _ eng => decide (eng < 4)
  | .cdcmdEtest _ eng => decide (eng < 4)
  | .etestDone eng _ => decide (eng < 4)
  | .ectlByp _ byp => decide (byp < 16)
  | .engineTest eng _ => decide (eng < 4)
  | .contextSramError => true
  | .xcmdSnap _ => true
  | .xcmdRestore _ => true
  | .xcmdClear _ => true
  | .dcmdSubmit _ dsc => decide (dsc.length = 8)
  | .dcmdResume _ job => decide (job < 16)
  | .dcmdAbort _ job => decide (job < 16)
  | .dcmdRelease _ job => decide (job < 16)
  | .jobStart job => decide (job < 16)
  | .ddone job => decide (job < 16)
  | .dstop job => decide (job < 16)
  | .derr job _ => decide (job < 16)
  | .ack port _ unit ctx seq => decide (port < 2) && decide (unit < 4) && decide (ctx < 64) && decide (seq < 2 ^ 28)
  | .resend port _ unit ctx seq => decide (port < 2) && decide (unit < 4) && decide (ctx < 64) && decide (seq < 2 ^ 28)
  | .egressSend _ => true
  | .gapRecordStore ctx => decide (ctx < 64)
  | .scrub _ _ => true
  | .canvasFault => true
  | .tcmdSet _ => true
  | .tcmdStep _ => true
  | .tcmdPsack _ => true
  | .increment _ inc => decide (inc < 2 ^ 36)
  | .servo _ _ _ => true
  | .sourceQualify code => decide (1 ≤ code) && decide (code ≤ 3)
  | .sourceLost code => decide (1 ≤ code) && decide (code ≤ 3)
  | .refinCount _ => true
  | .ptpRx kind _ => decide (kind < 4)
  | .ptpTx msg _ _ => decide (msg.kind < 4) && decide (msg.sec < 2 ^ 48) && decide (msg.ns < 2 ^ 32) && decide (msg.sum < 65536) && decide (msg.pad < 65536) && (msg.pre ++ msg.head ++ msg.mid ++ msg.tail).all (fun b => decide (b < 256)) && decide (msg.head.length = 8) && decide (msg.mid.length = 18)
  | .delayExchange _ _ => true
  | .holdoff => true
  | .asymWrite _ _ => true
  | .xdiff => true
  | .ecfgMode _ mode => decide (mode < 4)
  | .ethLinkUp => true
  | .ethLinkDown => true
  | .lcmdTrain _ port => decide (port < 2)
  | .lcmdStop _ port => decide (port < 2)
  | .lcmdTest _ port => decide (port < 2)
  | .lcmdLretry _ port => decide (port < 2)
  | .trainingFrame link lane sym => decide (link < 3) && decide (lane < 4) && decide (224 ≤ sym.length)
  | .fcokTimeout link => decide (link < 3)
  | .rrdy link => decide (link < 3)
  | .linkup link lanes _ => decide (link < 3) && decide (lanes.rx < 16) && decide (lanes.tx < 16)
  | .trnfail link => decide (link < 3)
  | .bringupRetry link => decide (link < 3)
  | .codeword link lane lv => decide (link < 3) && decide (lane < 4) && cwOk lv.length
  | .zlpFrame link fk flen _ => decide (link < 3) && decide (fk < 4) && decide (flen < 4096)
  | .caps link _ _ => decide (link < 3)
  | .time link part dir ref _ => decide (link < 3) && decide (part < 3) && decide (dir < 2) && decide (ref < 16)
  | .transportNop link => decide (link < 3)
  | .linkNop link => decide (link < 3)
  | .lack link csn => decide (link < 3) && decide (csn < 4096)
  | .nak link csn => decide (link < 3) && decide (csn < 4096)
  | .ldrop link lanes _ frm => decide (link < 3) && decide (lanes < 16) && decide (frm < 4096)
  | .ladd link lanes => decide (link < 3) && decide (lanes < 16)
  | .lmask link lanes _ => decide (link < 3) && decide (lanes < 16)
  | .ltrn link lane req stat => decide (link < 3) && decide (lane < 4) && decide (req < 2 ^ 10) && decide (stat < 2 ^ 6)
  | .clklost link => decide (link < 3)
  | .clkfallback link => decide (link < 3)
  | .lnkto link => decide (link < 3)
  | .lanedn link lane frm => decide (link < 3) && decide (lane < 4) && decide (frm < 4096)
  | .laneReady link lane => decide (link < 3) && decide (lane < 4)
  | .retrainTimeout link lane => decide (link < 3) && decide (lane < 4)
  | .margin link mv => decide (link < 3) && decide (mv.length = 4)
  | .quiet link => decide (link < 3)
  | .quietExit link => decide (link < 3)
  | .quietRestore link => decide (link < 3)
  | .lanePllFail link => decide (link < 3)
  | .acmdInstall _ _ => true
  | .acmdRewind _ => true
  | .authorityFrame port _ _ _ _ => decide (port < 2)
  | .beacon port _ _ _ _ => decide (port < 2)
  | .beaconSend => true
  | .coll port _ _ => decide (port < 2)
  | .topo port _ _ _ => decide (port < 2)
  | .credit port _ _ => decide (port < 2)
  | .creditSend port => decide (port < 2)
  | .tdist port _ _ => decide (port < 2)
  | .tdistSend port => decide (port < 2)
  | .report port _ _ _ _ => decide (port < 2)
  | .island => true
  | .cand port _ _ _ => decide (port < 2)
  | .candSend => true
  | .keeper => true
  | .tkeep port _ _ _ => decide (port < 2)
  | .rejoin => true
  | .twlIsolate _ => true
  | .twlRejoin _ => true
  | .twlRelease _ => true
  | .twlResync _ => true
  | .paired _ _ _ _ _ _ _ _ => true
  | .pairingTimeout volts => volts.all fun e => decide (e.1 < 192) && decide (e.2 < 65536)
  | .role code unit _ => decide (code < 7) && decide (unit < 4)
  | .roleSend => true
  | .health _ => true
  | .healthSend => true
  | .pause => true
  | .resume => true
  | .pauseExpiry => true
  | .fail cls => decide (cls < 16)
  | .ownFailure cls => decide (cls < 16)
  | .summary _ chans => decide (chans.length ≤ 784)
  | .summarySend _ => true
  | .checkpointCut => true
  | .checkpointFrame _ => true
  | .twinLinkLost => true
  | .hbviol => true
  | .takeover => true
  | .foreign => true
  | .pcmdRestart _ proc => decide (proc < 4)
  | .watchdog proc => decide (proc < 4)
  | .sensorSample temps rails _ _ _ _ _ => decide (temps.length = 6) && decide (rails.length = 12)
  | .sessionOpen _ _ => true
  | .confirm sid _ => decide (sid < 8)
  | .sessfail sid => decide (sid < 8)
  | .subscribe sid _ page val => decide (sid < 8) && decide (page < 4096) && decide (val < 256)
  | .keepAlive sid _ => decide (sid < 8)
  | .close sid _ => decide (sid < 8)
  | .sessionTimeout sid => decide (sid < 8)
  | .scmdInstall _ => true
  | .scmdEndorse _ _ => true
  | .scmdTransfer _ _ => true
  | .scmdRelease _ => true
  | .ownchg => true
  | .scmdStream _ => true
  | .secretExpiry => true
  | .scmdClose _ sid => decide (sid < 8)
  | .scmdMkchal _ => true
  | .scmdMkunlock _ _ => true
  | .scmdRetrec _ => true
  | .ucmdOpen _ ulen => decide (ulen < 2 ^ 32)
  | .ucmdCheck _ => true
  | .checkDone _ => true
  | .ucmdInstall _ => true
  | .ucmdClose _ => true
  | .regionErased proc => decide (proc < 4)
  | .containerWritten proc => decide (proc < 4)
  | .readback proc _ => decide (proc < 4)
  | .boot proc _ _ => decide (proc < 4)
  | .attach _ => true
  | .detach => true
  | .supplySample _ _ => true
  | .levelStepUp => true
  | .xchg => true
  | .uvlo => true
  | .powerOn _ => true
  | .rstN => true
  | .pllLoss pll => decide (pll < 3)
  | .rail i => decide (i < 12)
  | .portchg port _ => decide (port < 2)
  | .inrushEnd port => decide (port < 2)
  | .ptoc => true
  | .ptProbe _ => true
  | .pdenWrite _ _ => true
  | .domainPowerGood dom => decide (dom < 17)
  | .sucmdSave _ => true
  | .sucmdSaveDone => true
  | .sucmdClear _ => true
  | .rearm => true
  | .sudone _ => true
  | .announce _ => true
  | .hbtoExpiry port _ => decide (port < 2)
  | .hostConfigured _ => true
  | .lcmdLoadDone => true
  | .verifyDone => true

end Sys2Proof
end

