-- ==== Sys2Proof/Certificates/Slice0/Obligations.lean ====
section
/-! DEFINITION. The statements about the hub: the queue and the window, then family by family what each command does where it completes,
and what no command breaks. -/

open Sys2Proof Sys2Proof.Machine

/-- A step takes the command at the front of the queue and runs it on the state that keeps the queue's rest (the queue is the model's
own, log entry 1). -/
def Obligations.StepTakesTheFront : Prop :=
  ∀ (s : State) (c : Instr) (r : List Instr), step { s with pending := c :: r } = exec c { s with pending := r }

/-- With no command waiting a step is one CCLK cycle (the model's choice, log entry 2), in which domain time grows by the increment of
R257 and the measured registers follow free values (log entries 65 and 66) within R428. -/
def Obligations.IdleStepIsOneCycle : Prop :=
  ∀ s : State, s.pending = [] → s.time.ns < 1000000000 → s.time.frac < 2 ^ 32 →
    ∃ t, step s = .next t ∧
      let w : TwlSt := { s.twl with gap := t.twl.gap, absent := t.twl.absent, failRx := t.twl.failRx }
      let u : State := { s with cyc := s.cyc + 1, time := t.time, links := t.links, axs := { s.axs with trgOut := t.axs.trgOut }, twl := w,
                                vb := t.vb, sec := { s.sec with signing := false } }
      unlogged t = unlogged { u with optK := t.optK, ports := t.ports, ctxs := t.ctxs } ∧
      (t.optK = s.optK → t.ports = s.ports ∧ t.ctxs = s.ctxs) ∧
      (t.twl.failRx = s.twl.failRx ∨ t.twl.failRx = none ∧ anyPresent t = true) ∧
      (s.sec.signing = true → get t (hPCT pSEC) = 100) ∧ (s.sec.signing = false → sameOff s t ((List.range 0x80).filter (· != pSEC))) ∧
      t.twl.gap = (if anyPresent t then 0 else s.twl.gap + 1) ∧
      t.twl.absent = (if anyPresent t ∨ flag s TWL.TROLE_PAUSE = true then 0 else s.twl.absent + 1) ∧
      (∀ l, { link t l with lanes := [] } = { link s l with lanes := [] }) ∧
      (∀ l k, { laneAt (link t l) k with eq := 0 } = { laneAt (link s l) k with eq := 0 }) ∧
      (∀ l k, adapts s l k = false → laneAt (link t l) k = laneAt (link s l) k) ∧
      s.axs.trgOut ||| t.axs.trgOut = t.axs.trgOut ∧
      sameRegs s t ([EXC.EXMEAS_PWR, PWR.PTST_I, PWR.PORTST_ILIM 0, PWR.PORTST_ILIM 1, ETH.RXERR_N, CLK.MPHE_E, TK.TERR_N 0, TK.TERR_N 1,
          MTR.MSTAT_SEALN, MTR.MSTAT_LIDO, hPOS pSEC, hPCT pSEC] ++ evts pEXC ++ evts pSEC ++ evts pOPT ++
        (List.range 16).map OPTP.PST_LIM ++ (List.range 4).map MGT.PLOAD_PCT ++
        (List.range 48).flatMap fun n => (List.range 4).flatMap fun q => [BNK.QMEAS_VSNS n q, BNK.QMEAS_IMEAS n q]) ∧
      (∀ n < 48, ∀ q < 4, pstate s (bankPage n) ≠ stOFF →
        (get s (BNK.QCFG_QM n q) = 0 → get t (BNK.QMEAS_VSNS n q) = 0 ∧ get t (BNK.QMEAS_IMEAS n q) = 0) ∧
        (flag s (BNK.QSTAT_ON n q) = false → get t (BNK.QMEAS_IMEAS n q) = 0)) ∧
      (pstate s pEXC = stIDLE ∨ pstate s pEXC = stRUN → loadE7 s ≤ 240000000 → 240000000 < loadE7 t → evt t pEXC 8 = true) ∧
      (domainOn s 16 = false → t.time = s.time) ∧
      (domainOn s 16 = true → t.time.ns < 1000000000 ∧ t.time.frac < 2 ^ 32 ∧
        ((t.time.sec * 1000000000 + t.time.ns) * 2 ^ 32 + t.time.frac) % (2 ^ 48 * 1000000000 * 2 ^ 32) =
          ((s.time.sec * 1000000000 + s.time.ns) * 2 ^ 32 + s.time.frac + increment36 s) % (2 ^ 48 * 1000000000 * 2 ^ 32))

/-- What reset leaves (R35, R37, R40 and the page chapters); the values of fused, stored and measured registers are the model's choice
(log entries 10 and 11) and none is named here. -/
def Obligations.ResetIsTheTablesState : Prop :=
  (∀ f : Fld, get State.reset f = f.rst) ∧ get State.reset SCH.LEADMN_MS = 0x32 ∧ get State.reset AXS.IDXTOL_TOL = 4 ∧
    get State.reset MGT.TWARN_T = 0x2AF8 ∧ get State.reset MGT.MOISTH_RH = 0x2BC ∧
    (∀ c : Nat, get State.reset (LIN.COEF_C 4 c) = 0x3F800000) ∧
    pstate State.reset pSCH = stOFF ∧ pstate State.reset pAXS = stOFF ∧ (∀ n < 48, pstate State.reset (bankPage n) = stOFF) ∧
    pstate State.reset pDEV = stRUN ∧ (∀ p i : Nat, evt State.reset p i = false) ∧ (∀ i : Nat, session State.reset i = none) ∧
    State.reset.pending = [] ∧ memWf State.reset.cnv.mem = true

/-- Whatever the command, CANVAS stays in its canonical form: rising addresses, no blank entry. -/
def Obligations.StepKeepsCanvasCanonical : Prop :=
  ∀ s t : State, memWf s.cnv.mem = true → step s = .next t → memWf t.cnv.mem = true

/-- No register content and no operand value in its range stops the hub; the one stop is an instance that does not exist. -/
def Obligations.WellFormedCommandsRun : Prop :=
  ∀ (i : Instr) (s : State),
    (i.wf = true → ∃ t, exec i s = .next t) ∧
    ((∃ t, exec i s = .next t) ∨ (exec i s = .fault .noSuchUnit ∧ i.wf = false))

/-- R41: precedence of reject reasons, their codes, and the lowest-addressed word. -/
def Obligations.ReportedReasonIsTheHighest : Prop :=
  (∀ l : List Viol, (worst l = none ↔ l = []) ∧
    ∀ v, worst l = some v → v ∈ l ∧ ∀ u ∈ l, v.1.prec < u.1.prec ∨ (v.1 = u.1 ∧ v.2 ≤ u.2)) ∧
  [Reason.auth, .size, .rsvd, .range, .locked, .state, .busy].map Reason.prec = [1, 2, 3, 4, 5, 6, 7] ∧
  [Reason.auth, .size, .rsvd, .range, .locked, .state, .busy].map Reason.code = [4, 7, 5, 2, 3, 1, 6]

/-- R42 for every write and read burst that reaches the window in its turn and whose page can record it. -/
def Obligations.RejectedAccessIsRecorded : Prop :=
  ∀ (s e : State) (src : Src) (page off : Nat), Comes s src e → off < 0x1000 → assigned page = true → page ≠ pMAKER →
    answers e page = true →
    (∀ (ws : List Word) (good : Bool) (v : Viol), lenOk ws.length = true →
      (worst (violAccess e src page off ws.length true) = some v ∨
        (worst (violAccess e src page off ws.length true) = none ∧ worst (judge e src good page off ws).2 = some v)) →
      Answers (.writeBurst src (page * 0x1000 + off) ws good) s fun t =>
        Replied t src v.1.code [] ∧ Rejected s t src page v (if page = pSCH then [SCH.ENTERR_IDX] else [])) ∧
    (∀ (n : Nat) (bad : List Nat) (v : Viol), lenOk n = true → worst (violRead e src page off n) = some v →
      Answers (.readBurst src (page * 0x1000 + off) ⟨n, bad, false⟩) s fun t =>
        Replied t src v.1.code (List.replicate n 0#32) ∧ Rejected s t src page v []) ∧
    (∀ (ws : List Word) (good : Bool), lenOk ws.length = true → admits e src page off ws good = true →
      Answers (.writeBurst src (page * 0x1000 + off) ws good) s fun t =>
        ∀ sid tseq, src = .session sid tseq → (session t sid).isSome = true → Replied t src 0 []) ∧
    (∀ (n : Nat) (bad : List Nat), lenOk n = true → worst (violRead e src page off n) = none →
      Answers (.readBurst src (page * 0x1000 + off) ⟨n, bad, false⟩) s fun t => ∃ data, data.length = n ∧ Replied t src 0 data)

/-- R33: accesses that reach no page that can record them. -/
def Obligations.UnrecordedAccessGoesToXrej : Prop :=
  ∀ (s e : State) (src : Src) (page off : Nat), Comes s src e → off % 4 = 0 →
    (∀ (ws : List Word) (good : Bool), lenOk ws.length = true → off + 4 * ws.length ≤ 0x1000 →
      mayWrite (actRole e src) page = true → (page = pUPD → onService e src = true) → page ≠ pMAKER →
      (assigned page = false → Answers (.writeBurst src (page * 0x1000 + off) ws good) s fun t =>
        Replied t src 2 [] ∧ RejectedX s t src page 2 true) ∧
      (assigned page = true → answers e page = false → Answers (.writeBurst src (page * 0x1000 + off) ws good) s fun t =>
        Replied t src 1 [] ∧ RejectedX s t src page 1 true)) ∧
    (∀ (n : Nat) (bad : List Nat), lenOk n = true → off + 4 * n ≤ 0x1000 →
      (assigned page = false → Answers (.readBurst src (page * 0x1000 + off) ⟨n, bad, false⟩) s fun t =>
        Replied t src 2 (List.replicate n 0#32) ∧ RejectedX s t src page 2 true) ∧
      (assigned page = true → answers e page = false →
        Answers (.readBurst src (page * 0x1000 + off) ⟨n, bad, false⟩) s fun t =>
          Replied t src 1 (List.replicate n 0#32) ∧ RejectedX s t src page 1 true) ∧
      (page = pMAKER → answers e page = true → Answers (.readBurst src (page * 0x1000 + off) ⟨n, bad, false⟩) s fun t =>
        Replied t src 0 (List.replicate n 0#32) ∧ RejectedX s t src page 0 false)) ∧
    (∀ (ws : List Word) (good : Bool), lenOk ws.length = true → off < 0x1000 → page = pMAKER →
      Answers (.writeBurst src (page * 0x1000 + off) ws good) s fun t => Replied t src 4 [] ∧ RejectedX s t src page 4 true)

/-- R26: OBSERVER writes nowhere, whatever the value. -/
def Obligations.ObserverWritesNothing : Prop :=
  ∀ (s e : State) (sid tseq page off : Nat) (x : Session) (ws : List Word) (good : Bool),
    Comes s (.session sid tseq) e → session s sid = some x → x.role = .observer → off < 0x1000 → lenOk ws.length = true →
    Answers (.writeBurst (.session sid tseq) (page * 0x1000 + off) ws good) s fun t =>
      Replied t (.session sid tseq) 4 [] ∧
      (Rejected s t (.session sid tseq) page (.auth, off) [] ∨ RejectedX s t (.session sid tseq) page 4 true)

/-- R361 and R29: what becomes of a message whose turn it is not. -/
def Obligations.SessionMessagesRunInOrder : Prop :=
  ∀ (s : State) (sid tseq addr : Nat) (x : Session) (ws : List Word) (good : Bool),
    mgpRuns s = true → session s sid = some x → x.open_ = true → lenOk ws.length = true →
    (∀ c ∈ x.cache, tseq < x.next → x.cache.find? (fun y => y.1 = tseq) = some c →
      Answers (.writeBurst (.session sid tseq) addr ws good) s fun t =>
        t.out.getLast? = some (.reply sid tseq c.2 (sessionWords x sid tseq (replyWords c.2))) ∧ sameRegs s t svcs ∧
        Untouched s t (.session sid tseq)) ∧
    (tseq < x.next → x.cache.find? (fun y => y.1 = tseq) = none →
      Answers (.writeBurst (.session sid tseq) addr ws good) s fun t =>
        t.out = s.out ∧ t.links = s.links ∧ sameRegs s t svcs ∧ inside t = inside s) ∧
    (x.next < tseq → tseq ≤ x.next + 64 → (x.held.any fun y => y.1 = tseq) = false →
      Answers (.writeBurst (.session sid tseq) addr ws good) s fun t =>
        (session t sid).map (·.held) = some (x.held ++ [(tseq, .write addr ws good)]) ∧ t.out = s.out ∧ t.links = s.links ∧
        sameRegs s t svcs ∧ inside t = inside s) ∧
    (x.next + 64 < tseq →
      Answers (.writeBurst (.session sid tseq) addr ws good) s fun t =>
        t.out.getLast? = some (.reply sid tseq ⟨6, [], addr⟩ (sessionWords x sid tseq (replyWords ⟨6, [], addr⟩))) ∧
        Untouched s t (.session sid tseq) ∧ sameOff s t [pageOf addr, pDEV, pMGT, pSVC, pTKE, pTKW])

/-- R429: Subscribe. -/
def Obligations.SubscribeReplies : Prop :=
  ∀ (s e : State) (sid tseq page val : Nat) (x : Session), Comes s (.session sid tseq) e → session s sid = some x →
    (Answers (.subscribe sid tseq page val) s fun t =>
      sameRegs s t svcs ∧ Untouched s t (.session sid tseq) ∧
      if assigned page = false ∨ 1 < val then
        Replied t (.session sid tseq) 2 [] ∧ (session t sid).map (·.subs) = some x.subs
      else if val = 0 then
        Replied t (.session sid tseq) 0 [] ∧ ∃ y, session t sid = some y ∧ page ∉ y.subs ∧ ∀ p, p ≠ page → (p ∈ y.subs ↔ p ∈ x.subs)
      else if page ∈ x.subs then Replied t (.session sid tseq) 0 [] ∧ (session t sid).map (·.subs) = some x.subs
      else if 32 ≤ x.subs.length then Replied t (.session sid tseq) 7 [] ∧ (session t sid).map (·.subs) = some x.subs
      else Replied t (.session sid tseq) 0 [] ∧ (session t sid).map (·.subs) = some (x.subs ++ [page])) ∧
    (answers s page = false → exec (.notice sid page) s = .next s)

/-- R28 and R31 for reads, R360 for keep-alive and close, R361 for notices, R360 for a message that fails its tag. -/
def Obligations.SessionTraffic : Prop :=
  (∀ (s e : State) (src : Src) (page off n : Nat) (bad : List Nat), Comes s src e → off < 0x1000 → lenOk n = true → page ≠ pMAKER → page ≠ pQUE →
    worst (violRead e src page off n) = none →
    Answers (.readBurst src (page * 0x1000 + off) ⟨n, bad, false⟩) s fun t =>
      Replied t src 0 ((List.range n).map fun k => viewWord e src page (off + 4 * k)) ∧ sameRegs s t svcs ∧ Untouched s t src) ∧
  (∀ (s e : State) (src : Src) (bad : List Nat), Comes s src e → worst (violRead e src pSEC 0x400 1) = none →
    Answers (.readBurst src (pSEC * 0x1000 + 0x400) ⟨1, bad, true⟩) s fun t =>
      (0 < s.sec.cert.length → Replied t src 0 [s.sec.cert.getD 0 0#32]) ∧
      (∀ k < 128, k < s.sec.cert.length → get t (SEC.STG k) = (s.sec.cert.getD k 0#32).toNat) ∧ t.sec.shown = none ∧
      sameOff s t [pSEC, pSVC, pTKE, pTKW] ∧ sameMem s t) ∧
  (∀ (s e : State) (sid tseq : Nat), Comes s (.session sid tseq) e →
    (Answers (.keepAlive sid tseq) s fun t =>
      Replied t (.session sid tseq) 0 [] ∧ sameRegs s t svcs ∧ Untouched s t (.session sid tseq)) ∧
    (Answers (.close sid tseq) s fun t => session t sid = none ∧ (∀ j, j ≠ sid → (session t j).isSome = (session s j).isSome) ∧
      t.out = s.out ∧ sameOff s t [pUPD, pMGT, pSVC] ∧ sameMem s t)) ∧
  (∀ (s : State) (sid page : Nat) (x : Session), session s sid = some x → page ∈ x.due → answers s page = true →
    Answers (.notice sid page) s fun t =>
      t.out.getLast? = some (.notice sid page (get s (hPEVT page)) x.nseq (noticeTime s) (sessionWords x sid x.nseq (noticeWords s page))) ∧
      session t sid = some { x with due := x.due.filter (· != page), nseq := x.nseq + 1 } ∧ sameRegs s t svcs ∧
      Untouched s t (.session sid x.nseq)) ∧
  (∀ (s : State) (sid addr : Nat) (x : Session) (ws : List Word) (good : Bool), mgpRuns s = true → session s sid = some x → x.open_ = true →
    Answers (.writeBurst (.forged sid) addr ws good) s fun t =>
      (s.log.length < 4096 → (t.log.head?.map fun e => (e.page, e.code)) = some (pSEC, 0x0103)) ∧ t.out = s.out ∧
      sameRegs s t (evts pMGT ++ svcs) ∧ unlogged t = unlogged s)

/-- R28, R39: an admitted burst commits all its words. -/
def Obligations.BurstCommitsOnItsImage : Prop :=
  (∀ (s e : State) (src : Src) (page off : Nat) (ws : List Word) (good : Bool), off < 0x1000 → lenOk ws.length = true →
    Taken s src page off ws good e →
    Answers (.writeBurst src (page * 0x1000 + off) ws good) s fun t => sameRegs (commit e src good page off ws) t svcs) ∧
  (∀ (s e : State) (src : Src) (a b : Word), Taken s src pMGT 0xBC [a, b] false e →
    Answers (.writeBurst src (pMGT * 0x1000 + 0xBC) [a, b] false) s fun t =>
      get t MGT.TWARN_T = a.toNat ∧ get t MGT.MOISTH_RH = b.toNat ∧ sameRegs s t (MGT.TWARN_T :: MGT.MOISTH_RH :: svcs) ∧
      Untouched s t src) ∧
  (∀ (s e : State) (src : Src) (page : Nat) (w : Word), Taken s src page 0x10 [w] false e →
    Answers (.writeBurst src (page * 0x1000 + 0x10) [w] false) s fun t =>
      (∀ i < 32, evt t page i = (evt s page i && !bit w.toNat i)) ∧ sameRegs s t (hPEVT page :: svcs) ∧ Untouched s t src)

/-- R36 and R38 for the rows SOFT_RESET and ENABLE. -/
def Obligations.SoftResetAndEnable : Prop :=
  (∀ (s e : State) (src : Src) (page : Nat), get s (hLOCK page) < 2 → get s (hENABLE page) < 2 →
    Taken s src page 8 [wd (storedWord s page 8 % 2 ^ 32 + 2)] false e →
    (Answers (.softReset src page) s fun t =>
      get t (hLOCK page) = get s (hLOCK page) ∧ get t (hENABLE page) = get s (hENABLE page) ∧ get t (hREASON page) = get s (hREASON page) ∧
      get t (hSRC page) = get s (hSRC page) ∧ get t (hOFFSET page) = get s (hOFFSET page) ∧ get t (hREJCNT page) = get s (hREJCNT page) ∧
      (pstate t page = stOFF ↔ flag s (hENABLE page) = false) ∧
      ∀ f ∈ [AXS.IDXTOL_TOL, AXS.MCFG_MEN, AXS.ECPTLO_CPT, EXC.EXLIM_LIM, OPT.OPLIM_LIM, OPT.OSHR_SHR, SCH.LEADMN_MS, STM.CSEL_CTX,
          QUE.QSEL_Q, DOM.EGR_MODE, DOM.RJTOL_NS, TWL.CKPER_MS], codePage f.code = page → get t f = f.rst) ∧
    (∀ n < 48, page = bankPage n → Answers (.softReset src page) s fun t =>
      pstate t page = (if flag s (hENABLE page) then stIDLE else stOFF) ∧
      (∀ i < 32, i ≠ 1 → evt t page i = false) ∧
      (∀ f ∈ [BNK.XCTL_HALFP n, BNK.FRESP_MWN n, BNK.SPARE_SUSE n], get t f = f.rst) ∧
      (∀ c < 16, get t (BNK.CHCFG_MODE n c) = (BNK.CHCFG_MODE n c).rst ∧ get t (BNK.CALGN_GN n c) = (BNK.CALGN_GN n c).rst ∧
        get t (BNK.CALOF_OF n c) = (BNK.CALOF_OF n c).rst))) ∧
  (∀ (s e : State) (src : Src) (page : Nat) (on : Bool),
    Taken s src page 8 [wd (get s (hLOCK page) * 2 ^ 31 + on.toNat)] false e → get s (hLOCK page) < 2 →
    (Answers (.enable src page on) s fun t => flag t (hENABLE page) = on ∧ get t (hLOCK page) = get s (hLOCK page) ∧
      (on = true → pstate t page ≠ stOFF) ∧ (on = false → pstate s page = stIDLE → pstate t page = stOFF)) ∧
    (∀ n < 48, page = bankPage n → Answers (.enable src page on) s fun t =>
      (on = true → pstate s page = stOFF → pstate t page = stIDLE) ∧ (on = false → pstate s page = stIDLE → pstate t page = stOFF) ∧
      (∀ c < 16, get t (BNK.CHCFG_MODE n c) = get s (BNK.CHCFG_MODE n c))))

/-- R50: MAINS_CROSSING and MLOST. -/
def Obligations.MainsAxisMeasures : Prop :=
  ∀ s : State, flag s AXS.MCFG_MEN = true → pstate s pAXS ≠ stOFF →
    (∀ t phase : Nat, Answers (.mainsCrossing t phase) s fun u =>
      u.axs.mainsT = some t ∧
      (∀ t0, s.axs.mainsT = some t0 →
        get u AXS.MPER_PER = (if mainsValid (t - t0) then (t - t0) % 2 ^ 32 else get s AXS.MPER_PER) ∧
        (mainsValid (t - t0) = true → flag u AXS.ASTAT_MLOST = false) ∧
        (mainsValid (t - t0) = true → 19 ≤ s.axs.mainsGood → flag u AXS.ASTAT_MLOCK = true ∧
          (flag s AXS.ASTAT_MLOCK = false → evt u pAXS 8 = true))) ∧
      (s.axs.mainsT = none → get u AXS.MPER_PER = get s AXS.MPER_PER) ∧
      sameRegs s u ([AXS.MPER_PER, AXS.ASTAT_MLOST, AXS.ASTAT_MLOCK] ++ evts pAXS) ∧ unlogged u = unlogged { s with axs := u.axs }) ∧
    (s.axs.mainsT ≠ none → flag s AXS.ASTAT_MLOST = false → Answers .mlost s fun u =>
      get u AXS.ASTAT_MLOST = 1 ∧ get u AXS.ASTAT_MLOCK = 0 ∧ evt u pAXS 9 = true ∧ get u AXS.MPER_PER = get s AXS.MPER_PER ∧
      sameRegs s u ([AXS.ASTAT_MLOST, AXS.ASTAT_MLOCK] ++ evts pAXS) ∧
      unlogged u = unlogged { s with axs := { s.axs with mainsGood := 0, mainsSlew := true } })

/-- R52: ENCODER_EDGE and INDEX_PULSE. -/
def Obligations.EncoderCountsQuadrature : Prop :=
  ∀ (s : State) (t : Nat), pstate s pAXS ≠ stOFF → get s AXS.ECFG_SRC = 1 → cpt s ≠ 0 → cpt s ≤ 2 ^ 32 → get s AXS.ECNT_CNT < cpt s →
    (∀ a b : Bool,
      let d := (quadPhase a b + 4 - quadPhase s.axs.encA s.axs.encB) % 4
      let up := decide (d = 1) != flag s AXS.ECFG_DIR
      Answers (.encoderEdge a b t) s fun u =>
        u.axs.encA = a ∧ u.axs.encB = b ∧
        (d % 2 = 0 → get u AXS.ECNT_CNT = get s AXS.ECNT_CNT ∧ u.axs.turn = s.axs.turn) ∧ (d = 2 → evt u pAXS 10 = true) ∧
        (d % 2 = 1 → up = true → get u AXS.ECNT_CNT = (get s AXS.ECNT_CNT + 1) % cpt s ∧
          u.axs.turn = s.axs.turn + (if get s AXS.ECNT_CNT + 1 = cpt s then 1 else 0)) ∧
        (d % 2 = 1 → up = false → get u AXS.ECNT_CNT = (get s AXS.ECNT_CNT + cpt s - 1) % cpt s ∧
          u.axs.turn = s.axs.turn - (if get s AXS.ECNT_CNT = 0 then 1 else 0)) ∧
        sameRegs s u ([AXS.ECNT_CNT, AXS.ASTAT_EREV] ++ evts pAXS) ∧ unlogged u = unlogged { s with axs := u.axs }) ∧
    (flag s AXS.ECFG_ZEN = true → flag s AXS.ASTAT_EREV = false →
      let c := get s AXS.ECNT_CNT
      let dev : Int := if cpt s < 2 * c then (c : Int) - cpt s else c
      Answers (.indexPulse t) s fun u =>
        get u AXS.ECNT_CNT = 0 ∧ get u AXS.IDXERR_ERR = ofSigned 32 dev ∧ (get s AXS.IDXTOL_TOL < dev.natAbs → evt u pAXS 11 = true) ∧
        (pstate s pSCH = stIDLE → sameRegs s u ([AXS.ECNT_CNT, AXS.IDXERR_ERR, AXS.ASTAT_EREV] ++ evts pAXS) ∧
          unlogged u = unlogged { s with axs := u.axs }))

/-- R53, R55 and R263: SSI_FRAME, PPS_EDGE, TRIGGER_EDGE and TRG_PULSE_END. -/
def Obligations.SsiPpsAndPads : Prop :=
  (∀ (s : State) (bits t : Nat) (idle : Bool), ∃ u, exec (.ssiFrame bits idle t) s = .next u) ∧
  (∀ (s : State) (t : Nat), ∃ u, exec (.ppsEdge t) s = .next u) ∧
  (∀ (s : State) (pad t : Nat) (rise : Bool), pad < 8 → ∃ u, exec (.triggerEdge pad rise t) s = .next u) ∧
  (∀ (s : State) (pad : Nat), pad < 8 → ∃ u, exec (.trgPulseEnd pad) s = .next u) ∧
  (∀ (s : State) (bits t : Nat) (idle : Bool), pstate s pAXS ≠ stOFF → get s AXS.ECFG_SRC = 2 → get s AXS.ECFG_SSIB ≠ 0 → cpt s ≠ 0 →
    cpt s ≤ 2 ^ 32 →
    let low := get s AXS.ECFG_SSIB - get s AXS.ECFG_MTB
    let cnt := bits % 2 ^ get s AXS.ECFG_SSIB % 2 ^ low
    let trn := bits % 2 ^ get s AXS.ECFG_SSIB / 2 ^ low
    let span : Nat := 2 ^ (get s AXS.ECFG_SSIB - low) * cpt s
    (idle = false ∨ cpt s ≤ cnt → Answers (.ssiFrame bits idle t) s fun u =>
      get u AXS.ASTAT_SSIOK = 0 ∧ evt u pAXS 12 = true ∧ sameRegs s u (AXS.ASTAT_SSIOK :: evts pAXS) ∧
      unlogged u = unlogged { s with out := u.out }) ∧
    (idle = true → cnt < cpt s → s.axs.ssiLast = none → Answers (.ssiFrame bits idle t) s fun u =>
      get u AXS.ASTAT_SSIOK = 1 ∧ get u AXS.ECNT_CNT = cnt ∧ u.axs.turn = trn ∧
      sameRegs s u [AXS.ASTAT_SSIOK, AXS.ECNT_CNT, AXS.ASTAT_EREV] ∧ unlogged u = unlogged { s with axs := u.axs, out := u.out }) ∧
    (idle = true → cnt < cpt s → ∀ p d : Int, s.axs.ssiLast = some p → (p + d - (trn * cpt s + cnt : Nat)) % (span : Int) = 0 → d ≠ 0 →
      (4 * d.natAbs ≤ cpt s → Answers (.ssiFrame bits idle t) s fun u =>
        get u AXS.ASTAT_SSIOK = 1 ∧ get u AXS.ECNT_CNT = cnt ∧ u.axs.turn = (p + d) / (cpt s : Int) ∧
        sameRegs s u [AXS.ASTAT_SSIOK, AXS.ECNT_CNT, AXS.ASTAT_EREV] ∧ unlogged u = unlogged { s with axs := u.axs, out := u.out }) ∧
      (cpt s < 4 * d.natAbs → 2 * d.natAbs < span → Answers (.ssiFrame bits idle t) s fun u =>
        get u AXS.ASTAT_SSIOK = 0 ∧ evt u pAXS 12 = true ∧ sameRegs s u (AXS.ASTAT_SSIOK :: evts pAXS) ∧
        unlogged u = unlogged { s with out := u.out }))) ∧
  (∀ (s : State) (t : Nat), flag s AXS.PPSCFG_PEN = true → pstate s pAXS ≠ stOFF → Answers (.ppsEdge t) s fun u =>
    get u AXS.PPSNS_NS = t % 1000000000 ∧ evt u pAXS 13 = true ∧
    (t % 1000000000 ≤ 1000 ∨ 999999000 ≤ t % 1000000000 ∨ flag s TSU.TSTAT_QPPS = false → sameRegs s u (AXS.PPSNS_NS :: evts pAXS)) ∧
    (1000 < t % 1000000000 → t % 1000000000 < 999999000 → get u TSU.TSTAT_QPPS = 0) ∧ sameOff s u [pAXS, pTSU, pMGT] ∧
    unlogged { u with tsu := s.tsu } = unlogged { s with axs := { s.axs with ppsT := some t } }) ∧
  (∀ (s : State) (pad t : Nat) (rise : Bool), pad < 8 → pstate s pAXS ≠ stOFF → edgeTaken s pad rise = true →
    Answers (.triggerEdge pad rise t) s fun u =>
      get u (AXS.TRGS_SEC pad) = t / 1000000000 % 2 ^ 32 ∧ get u (AXS.TRGN_NS pad) = t % 1000000000 ∧ evt u pAXS (16 + pad) = true ∧
      (tableLive s = false → sameRegs s u ([AXS.TRGS_SEC pad, AXS.TRGN_NS pad] ++ evts pAXS) ∧ unlogged u = unlogged s)) ∧
  (∀ (s : State) (pad : Nat), pad < 8 → Answers (.trgPulseEnd pad) s fun u =>
    (∀ k < 8, bit u.axs.trgOut k = (bit s.axs.trgOut k && k != pad)) ∧ u = { s with axs := { s.axs with trgOut := u.axs.trgOut } })

/-- R62, R65, R192: the four commands of SCH.CMD. -/
def Obligations.ScheduleCommands : Prop :=
  ∀ (s e : State) (src : Src),
    (Taken s src pSCH 0x40 [1#32] false e → Answers (.schCommit src) s fun t =>
      get t SCH.SSTAT_SHVAL = 1 ∧ (pstate s pSCH = stIDLE → pstate t pSCH = stARMED) ∧ (pstate s pSCH = stRUN → pstate t pSCH = stRUN) ∧
      (∀ c < 64, cstate s c = stIDLE → (∃ i < 256, namesCtx (entAt s (shadowT s) i) c = true) → cstate t c = stARMED) ∧ sameMem s t) ∧
    (Taken s src pSCH 0x40 [2#32] false e → Answers (.schAbandon src) s fun t =>
      get t SCH.SSTAT_SHVAL = 0 ∧ (pstate s pSCH = stARMED → flag s SCH.SSTAT_SHVAL = true → pstate t pSCH = stIDLE) ∧
      (∀ k < 6, ∀ i < 512, get t (SCH.ENT k i) = get s (SCH.ENT k i)) ∧ sameOff s t [pSCH, pSTM, pQUE, pCDC, pCNV, pMGT, pSVC, pTKE, pTKW] ∧ sameMem s t) ∧
    (Taken s src pSCH 0x40 [3#32] false e → Answers (.schStop src) s fun t =>
      t.sch.stopAt = some (liveBase s * tickHz + (get s SCH.STOPHI_PT * 2 ^ 32 + get s SCH.STOPLO_PT)) ∧
      sameRegs s t svcs ∧ (get s DOM.DROLE_AUTH ≠ 1 → inside t = inside { s with sch := t.sch })) ∧
    (Taken s src pSCH 0x40 [4#32] false e → liveT s < 2 → Answers (.schClear src) s fun t =>
      (∀ k < 6, ∀ i < 256, get t (SCH.ENT k (shadowT s * 256 + i)) = 0 ∧
        get t (SCH.ENT k (liveT s * 256 + i)) = get s (SCH.ENT k (liveT s * 256 + i))) ∧
      (∀ f : Fld, ¬ (codePage f.code = pSCH ∧ 0x64 ≤ codeOff f.code ∧ codeOff f.code < 0x7C) → (∀ g ∈ svcs, f.code ≠ g.code) →
        get t f = get s f) ∧ inside t = inside s)

/-- R63, R65, R66: SWITCH, STOP_POINT and TABLE_MEMORY_ERROR. -/
def Obligations.SwitchAndStopPoint : Prop :=
  (∀ s : State, flag s SCH.SSTAT_SHVAL = true → pstate s pSCH = stARMED ∨ pstate s pSCH = stRUN →
    s.sch.rearmAt.isSome = true ∨ (epochInstant s).isSome = true → Answers .switch s fun t =>
    liveT t = shadowT s ∧ get t SCH.SSTAT_SHVAL = 0 ∧ get t SCH.SSTAT_EPV = 1 ∧ get t SCH.SSTAT_EPBHND = 0 ∧
    get t SCH.EPOCHL_EP = get s SCH.EPOCHS_EP % 2 ^ 32 ∧ get t SCH.BASELL_SEC = get s SCH.BASESL_SEC % 2 ^ 32 ∧
    get t SCH.BASELH_SEC = get s SCH.BASESH_SEC % 2 ^ 16 ∧ evt t pSCH 8 = true ∧ t.sch.stopAt = none ∧
    (pstate t pSCH = stRUN ∨ liveIdx t = []) ∧ (∀ k < 6, ∀ i < 512, get t (SCH.ENT k i) = get s (SCH.ENT k i)) ∧ sameMem s t ∧
    sameOff s t ([pSCH, pSTM, pQUE, pCDC, pCNV, pMGT] ++ (List.range 48).map bankPage)) ∧
  (∀ (s : State) (x : Nat), s.sch.stopAt = some x → pstate s pSCH = stRUN → Answers .stopPoint s fun t =>
    get t SCH.SSTAT_SHVAL = 0 ∧ evt t pSCH 12 = true ∧ liveIdx t = [] ∧ t.sch.stopAt = none ∧
    (pstate t pSCH = stDRAIN ∨ pstate t pSCH = stIDLE) ∧ (∀ k < 6, ∀ i < 512, get t (SCH.ENT k i) = get s (SCH.ENT k i)) ∧ sameMem s t ∧
    sameOff s t [pSCH, pSTM, pQUE, pCDC, pCNV, pMGT]) ∧
  (∀ (s : State) (live : Bool) (i : Nat), i < 256 →
    (live = true ∧ (pstate s pSCH = stRUN ∨ pstate s pSCH = stDRAIN ∨ (pstate s pSCH = stARMED ∧ flag s SCH.SSTAT_EPV = true))) ∨
      (live = false ∧ flag s SCH.SSTAT_SHVAL = true ∧ (pstate s pSCH = stARMED ∨ pstate s pSCH = stRUN)) →
    Answers (.tableMemoryError live i) s fun t =>
      pstate t pSCH = stFAULT ∧ evt t pSCH 2 = true ∧ evt t pSCH 1 = true ∧ (∀ c < 64, ctxActive s c = true → ctxActive t c = false) ∧
      sameMem s t ∧ sameOff s t [pSCH, pSTM, pQUE, pCDC, pCNV, pMGT])

/-- R54, R57, R58, R67, R81, R175: OPEN_POINT, SWAP_POINT, OPTP_POINT and CKPT_POINT. -/
def Obligations.PointsAdvanceTheirEntry : Prop :=
  ∀ (s : State) (i : Nat) (e : Ent), i < 256 →
    let k := (progress s i).k
    let fin : Bool := e.step = 0 || (e.rep != 0 && decide (e.rep ≤ k + 1))
    let moved (t : State) : Prop := progress t i = { k := k + 1, retired := fin } ∧ sameMem s t ∧
      ∀ m < 6, ∀ j < 512, get t (SCH.ENT m j) = get s (SCH.ENT m j)
    (due s i actOPEN = some e → Answers (.openPoint i) s fun t => moved t ∧
      (fin = false → ctxActive s e.ctx = true → streamDown s = false →
        get t (STM.CSLLO_N e.ctx) = (get s (STM.CSLHI_N e.ctx) * 2 ^ 32 + get s (STM.CSLLO_N e.ctx) + 1) % 2 ^ 32)) ∧
    (due s i actSWAP = some e → Answers (.swapPoint i) s fun t => moved t ∧
      (fin = false →
        (∀ n < 48, swapNames e n = true → producing s n = true → (bank t n).grid = pointG s e k ∧
          ∀ q < 4, get t (BNK.QSTAT_POL n q) = k % 2) ∧
        ∀ f : Fld, (∀ n < 48, ∀ q < 4, f.code ≠ (BNK.QSTAT_POL n q).code) → get t f = get s f)) ∧
    (due s i actOPTP = some e → Answers (.optpPoint i) s fun t => moved t ∧ (fin = false → sameOff s t [pOPT])) ∧
    (due s i actCKPT = some e → Answers (.ckptPoint i) s fun t => moved t ∧
      (fin = false → sameRegs s t [TWL.CKN_N] ∧ (role s ≠ rACTIVE → role s ≠ rTAKEOVER → sameRegs s t [])))

/-- R69, R70, R71, R72, R64, R312, R362: TRIGGER_WINDOW_END, INTERPOLATED_SLOT, TABLE_FRAME and STOP_FRAME. -/
def Obligations.WindowsAndDistributedTables : Prop :=
  (∀ (s : State) (c : Nat) (w : Win), c < 64 → winOf s c = some w → w.last + 1 ≤ w.next →
    (w.pend = none → (ctx s c).leaving = false → Answers (.triggerWindowEnd c) s fun t =>
      winOf t c = none ∧ (ctx t c).cur = [] ∧ sameRegs s t ([hSTATE pSCH] ++ evts pSCH) ∧ sameMem s t) ∧
    (∀ i nt : Nat, w.pend = some (i, nt) →
      let e := entAt s (liveT s) i
      max (nt - e.aux / 65536) (w.last + 1) < nt + e.aux % 65536 → Answers (.triggerWindowEnd c) s fun t =>
        (winOf t c).map (fun v => (v.entry, v.first, v.last)) =
          some (i, max (nt - e.aux / 65536) (w.last + 1), nt + e.aux % 65536 - 1) ∧ sameMem s t)) ∧
  (∀ (s : State) (c : Nat) (z : Slot), c < 64 → waitingInterp s c = some z → (∀ l, s.cnv.ringLast = some l → (samplePos z.t).1 + 8 ≤ l) →
    let waiting (u : State) : Nat := ((ctx u c).closed.flatMap (·.slots) ++ (ctx u c).cur).countP fun z => z.g = gInterp && !z.full
    let used := if s.sch.interp.1 = z.t / sec16 then s.sch.interp.2 else 0
    Answers (.interpolatedSlot c () () ()) s fun u =>
      waiting u + 1 = waiting s ∧ u.sch.interp = (z.t / sec16, used + (ctxChans s c).length) ∧
      (61440000 < used + (ctxChans s c).length → evt u pSCH 11 = true) ∧ sameRegs s u ([hSTATE pSCH] ++ evts pSCH) ∧ sameMem s u) ∧
  (∀ (s : State) (f : TableFrame), pstate s pDOM ≠ stOFF →
    (ofHead s f.good f.srcPos = false → Answers (.tableFrame f) s fun t =>
      get t SEC.DSFAIL_N = min (get s SEC.DSFAIL_N + 1) 65535 ∧ evt t pSEC 12 = true ∧ sameRegs s t (SEC.DSFAIL_N :: evts pSEC) ∧
      unlogged t = unlogged s) ∧
    (f.good = true → fromHead s f.agen f.srcPos = true → get s DOM.DROLE_AUTH = 2 → Answers (.tableFrame f) s fun t =>
      t.dom.headEpoch = some f.epoch ∧ (flag t SCH.SSTAT_SHVAL = true ∨ (flag t SCH.SSTAT_EPBHND = true ∧ evt t pSCH 9 = true)) ∧
      (f.late = true → flag t SCH.SSTAT_EPBHND = true) ∧ sameMem s t)) ∧
  (∀ (s : State) (f : StopFrame), pstate s pDOM ≠ stOFF →
    (ofHead s f.good f.srcPos = false → Answers (.stopFrame f) s fun t =>
      get t SEC.DSFAIL_N = min (get s SEC.DSFAIL_N + 1) 65535 ∧ evt t pSEC 12 = true ∧ sameRegs s t (SEC.DSFAIL_N :: evts pSEC) ∧
      unlogged t = unlogged s) ∧
    (f.good = true → fromHead s f.agen f.srcPos = true → get s DOM.DROLE_AUTH = 2 → f.epoch = get s SCH.EPOCHL_EP →
      pstate s pSCH = stRUN → Answers (.stopFrame f) s fun t =>
        t = { s with sch := { s.sch with stopAt := some (liveBase s * tickHz + f.stop) } }))

/-- R77, R90, R93, R130, R131, R137, R143: the bank commands and the writes with rows of their own. -/
def Obligations.BankCommands : Prop :=
  (∀ (s e : State) (src : Src) (n : Nat), n < 49 →
    (Taken s src (bankPage n) (bankOff n 0x40) [1#32] false e → Answers (.bcmdStart src n) s fun t =>
      pstate t (bankPage n) = stRUN ∧ (activeMask s n ≠ 0 → (bank t n).route = some ⟨activeMask s n, 1⟩) ∧
      (∀ k < 16, get s (BNK.CHCFG_MODE n k) ≠ 0 → bit (get t (BNK.SETST_SET n)) k = true) ∧
      (n < 48 → ∀ q < 4, get t (BNK.QSTAT_POL n q) = 0) ∧ (∀ k < 16, get t (BNK.CHCFG_MODE n k) = get s (BNK.CHCFG_MODE n k)) ∧
      sameMem s t) ∧
    (Taken s src (bankPage n) (bankOff n 0x40) [2#32] false e → Answers (.bcmdStop src n) s fun t =>
      pstate t (bankPage n) = stIDLE ∧ (bank t n).route = none ∧ get t (hBUSY (bankPage n)) = 0 ∧ get t (BNK.SETST_SET n) = 0 ∧
      (n < 48 → ∀ q < 4, get t (BNK.QSTAT_ON n q) = 0) ∧ (∀ k < 16, get t (BNK.CHCFG_MODE n k) = get s (BNK.CHCFG_MODE n k)) ∧
      sameMem s t) ∧
    (Taken s src (bankPage n) (bankOff n 0x40) [3#32] false e → Answers (.bcmdTestin src n) s fun t =>
      pstate t (bankPage n) = stTEST ∧ (∀ k < 16, get t (BNK.CHCFG_MODE n k) = get s (BNK.CHCFG_MODE n k)) ∧ sameMem s t) ∧
    (Taken s src (bankPage n) (bankOff n 0x40) [4#32] false e → Answers (.bcmdTestout src n) s fun t =>
      pstate t (bankPage n) = stRUN ∧ get t (BNK.TINJ_MASK n) = 0 ∧
      (∀ k < 16, get t (BNK.CHCFG_MODE n k) = get s (BNK.CHCFG_MODE n k)) ∧ sameMem s t) ∧
    (∀ suse < 4, ∀ schn < 16, Taken s src (bankPage n) (bankOff n 0x4C) [wd (suse * 256 + schn)] false e →
      Answers (.spareWrite src n suse schn) s fun t =>
        get t (BNK.SPARE_SUSE n) = suse ∧ get t (BNK.SPARE_SCHN n) = schn ∧ sameMem s t) ∧
    (∀ w : Word, Taken s src (bankPage n) (bankOff n 0x48) [w] false e → Answers (.frespCommit src n w) s fun t =>
      get t (BNK.FRESP_MWIN n) = wbits w 31 31 ∧ get t (BNK.FRESP_MWN n) = wbits w 27 24 ∧ get t (BNK.FRESP_RESP n) = wbits w 23 20 ∧
      get t (BNK.FRESP_CICD n) = wbits w 15 0 ∧
      (producing s n = true → get s (BNK.FRESP_CICD n) ≠ wbits w 15 0 → get t (BNK.SETST_SET n) = 0xFFFF) ∧ sameMem s t)) ∧
  (∀ (s e : State) (src : Src), Taken s src pEXC 0x4C [1#32] false e → Answers (.alloff src) s fun t =>
    (∀ n < 48, pstate t (bankPage n) ≠ stRUN ∧ pstate t (bankPage n) ≠ stTEST ∧
      (pstate s (bankPage n) = stSEALED → pstate t (bankPage n) = stSEALED)) ∧ sameMem s t)

/-- R77, R79, R82, R83, R86, R143: ROUTING_DISCHARGE, MAKE_STEP, SETTLE_END, BLANKING_WINDOW and BLANKING_END. -/
def Obligations.RoutingAndSettling : Prop :=
  (∀ (s : State) (n : Nat) (r : Routing), n < 49 → (bank s n).route = some r →
    (r.step = 1 → Answers (.routingDischarge n) s fun t => t = setBank s n { bank s n with route := some { r with step := 2 } }) ∧
    (r.step = 2 → Answers (.makeStep n) s fun t =>
      (bank t n).route = none ∧ get t (hBUSY (bankPage n)) = 0 ∧ evt t (bankPage n) (if n = 48 then 15 else 14) = true ∧
      (∀ k < 16, bit r.mask k = true → bit (get t (BNK.SETST_SET n)) k = true) ∧
      sameRegs s t ([hBUSY (bankPage n), BNK.SETST_SET n, BNK.CHST_OPN n] ++ evts (bankPage n)) ∧ sameMem s t)) ∧
  (∀ (s : State) (ch : Nat), ch < 784 →
    (∀ x : Nat, (chan s ch).endE = some x → x < sampleInProgress s → Answers (.settleEnd ch true) s fun t =>
      t = setChan s ch { chan s ch with endE := none }) ∧
    ((chan s ch).mwLeft = 0 → (∀ x, (chan s ch).endM = some x → emerged s ch x = true) → role s ≠ rTAKEOVER →
      Answers (.settleEnd ch false) s fun t =>
        bit (get t (BNK.SETST_SET (ch / 16))) (ch % 16) = false ∧ (chan t ch).endM = none ∧
        (ch < 768 → flag s (BNK.QSTAT_ON (ch / 16) (ch % 16 / 4)) = true →
          tget (bank t (ch / 16)).iRef (ch % 16 / 4) none = some (get s (BNK.QMEAS_IMEAS (ch / 16) (ch % 16 / 4)))) ∧
        (∀ n, bank t n = { bank s n with iRef := (bank t n).iRef }) ∧ sameRegs s t [BNK.SETST_SET (ch / 16)] ∧
        unlogged t = unlogged { setChan s ch { chan s ch with endM := none } with banks := t.banks })) ∧
  (∀ (s : State) (n : Nat), n < 48 → producing s n = false ∨ onGrid s n = false → exec (.blankingWindow n) s = .next s) ∧
  (∀ (s : State) (n : Nat), n < 48 → producing s n = true → onGrid s n = true → role s ≠ rTAKEOVER → Answers (.blankingWindow n) s fun t =>
    (bank t n).blanking = true ∧ (bank t n).pendQ = 0 ∧ sameRegs s t [BNK.SETST_SET n] ∧ sameMem s t) ∧
  (∀ (s : State) (n : Nat) (legs : List LegRead), n < 48 → (bank s n).blanking = true → Answers (.blankingEnd n legs) s fun t =>
    let broken (k : Nat) : Bool := legBroken s n k ((legs.map (·.moved)).getD k 0) ((legs.map (·.bias)).getD k 1000)
    (bank t n).blanking = false ∧
    (∀ k < 16, bit (bank t n).legs k =
      (if legJudged s n k then broken k else bit (bank s n).legs k)) ∧
    (∀ k < 16, legJudged s n k = true → broken k = true → bit (bank s n).legs k = false →
      bit (get t (BNK.CHST_OPN n)) k = true ∧ evt t (bankPage n) 8 = true) ∧
    sameRegs s t ([BNK.CHST_OPN n, BNK.SETST_SET n] ++ evts (bankPage n)) ∧ sameMem s t)

/-- R84, R86–R89, R91: QOPEN, QOPEN_CLEAR, OVR, OVR_CLEAR, BDS, BDS_END, QILIM, ILIM_END and QIDEV. -/
def Obligations.OpenWiresAndOverload : Prop :=
  (∀ (s : State) (n q : Nat), n < 48 → q < 4 → (∀ tick : Nat, ∃ t, exec (.qopen n q tick) s = .next t) ∧
    (∃ t, exec (.qopenClear n q) s = .next t) ∧ (∃ t, exec (.qilim n q) s = .next t) ∧ (∃ t, exec (.ilimEnd n q) s = .next t) ∧
    ∃ t, exec (.qidev n q) s = .next t) ∧
  (∀ (s : State) (ch : Nat), ch < 784 → (∃ t, exec (.ovr ch) s = .next t) ∧ ∃ t, exec (.ovrClear ch) s = .next t) ∧
  (∀ (s : State) (n : Nat), n < 48 → (∃ t, exec (.bds n) s = .next t) ∧ ∃ t, exec (.bdsEnd n) s = .next t) ∧
  (∀ (s : State) (n q : Nat), n < 48 → q < 4 →
    (∀ tick : Nat, producing s n = true → get s (BNK.QCFG_QM n q) ≠ 0 → Answers (.qopen n q tick) s fun t =>
      get t (BNK.QSTAT_OPEN n q) = 1 ∧ evt t (bankPage n) 11 = true ∧ evt t (bankPage n) 8 = true ∧
      (∀ i < 4, bit (get t (BNK.CHST_OPN n)) (4 * q + i) = true ∧ (chan t (16 * n + 4 * q + i)).opnFrom =
        some (min tick ((chan s (16 * n + 4 * q + i)).opnFrom.getD tick))) ∧
      sameRegs s t ([BNK.QSTAT_OPEN n q, BNK.CHST_OPN n] ++ evts (bankPage n)) ∧ sameMem s t) ∧
    (flag s (BNK.QSTAT_OPEN n q) = true → role s ≠ rTAKEOVER → Answers (.qopenClear n q) s fun t =>
      get t (BNK.QSTAT_OPEN n q) = 0 ∧
      (∀ i < 4, (chan t (16 * n + 4 * q + i)).opnFrom = none ∧ bit (get t (BNK.SETST_SET n)) (4 * q + i) = true ∧
        (bit (bank s n).legs (4 * q + i) = false → bit (get t (BNK.CHST_OPN n)) (4 * q + i) = false)) ∧
      sameRegs s t [BNK.QSTAT_OPEN n q, BNK.CHST_OPN n, BNK.SETST_SET n] ∧ sameMem s t) ∧
    (flag s (BNK.QSTAT_ON n q) = true → Answers (.qilim n q) s fun t =>
      get t (BNK.QSTAT_ILIM n q) = 1 ∧ evt t (bankPage n) 12 = true ∧ bit (bank t n).ilimTail q = true ∧
      (240000000 < loadE7 s → pstate s pEXC = stIDLE ∨ pstate s pEXC = stRUN → evt t pEXC 8 = true) ∧
      sameRegs s t (BNK.QSTAT_ILIM n q :: evts (bankPage n) ++ evts pEXC) ∧ sameMem s t) ∧
    (Answers (.ilimEnd n q) s fun t => get t (BNK.QSTAT_ILIM n q) = 0 ∧ bit (bank t n).ilimTail q = false ∧
      (240000000 < loadE7 s → pstate s pEXC = stIDLE ∨ pstate s pEXC = stRUN → evt t pEXC 8 = true) ∧
      sameRegs s t (BNK.QSTAT_ILIM n q :: evts pEXC) ∧ sameMem s t) ∧
    (∀ r : Nat, flag s (BNK.QSTAT_ON n q) = true → tget (bank s n).iRef q none = some r →
      r < 8 * max (get s (BNK.QMEAS_IMEAS n q) - r) (r - get s (BNK.QMEAS_IMEAS n q)) →
      (∀ k < 4, (chan s (16 * n + 4 * q + k)).endM = none ∧ (chan s (16 * n + 4 * q + k)).mwLeft = 0) → Answers (.qidev n q) s fun t =>
      get t (BNK.QSTAT_IDEV n q) = 1 ∧ evt t (bankPage n) 13 = true ∧ sameRegs s t (BNK.QSTAT_IDEV n q :: evts (bankPage n)) ∧
      unlogged t = unlogged s)) ∧
  (∀ (s : State) (ch : Nat), ch < 784 →
    (producing s (ch / 16) = true → get s (BNK.CHCFG_MODE (ch / 16) (ch % 16)) ≠ 0 → Answers (.ovr ch) s fun t =>
      bit (get t (BNK.CHST_OVR (ch / 16))) (ch % 16) = true ∧ evt t (bankPage (ch / 16)) 9 = true ∧
      (chan t ch).ovrOn = some ((chan s ch).ovrOn.getD (nowTicks s)) ∧
      sameRegs s t (BNK.CHST_OVR (ch / 16) :: evts (bankPage (ch / 16))) ∧
      unlogged t = unlogged (setChan s ch { chan s ch with ovrOn := (chan t ch).ovrOn })) ∧
    (bit (get s (BNK.CHST_OVR (ch / 16))) (ch % 16) = true → Answers (.ovrClear ch) s fun t =>
      bit (get t (BNK.CHST_OVR (ch / 16))) (ch % 16) = false ∧ bit (get t (BNK.SETST_SET (ch / 16))) (ch % 16) = true ∧
      (chan t ch).ovrOn = none ∧ sameRegs s t [BNK.CHST_OVR (ch / 16), BNK.SETST_SET (ch / 16)] ∧ sameMem s t)) ∧
  (∀ (s : State) (n : Nat), n < 48 →
    (answers s (bankPage n) = true → Answers (.bds n) s fun t =>
      get t (BNK.SETST_BDS n) = 1 ∧ (bank t n).clamp = true ∧ evt t (bankPage n) 10 = true ∧
      sameRegs s t (BNK.SETST_BDS n :: evts (bankPage n)) ∧ sameMem s t) ∧
    (Answers (.bdsEnd n) s fun t => get t (BNK.SETST_BDS n) = 0 ∧ (bank t n).clamp = false ∧ sameRegs s t [BNK.SETST_BDS n] ∧ sameMem s t))

/-- R90, R93, R117, R123, R125, R147: BANK_FAULT, DRVFLT, SELF_CHECK, ECO_CHANGE, ROM_CHECK and DIE_TEMP_UPDATE. -/
def Obligations.BankFaultsAndSelfCheck : Prop :=
  (∀ (s : State) (n : Nat), n < 49 → producing s n = true → Answers (.bankFault n) s fun t =>
    pstate t (bankPage n) = stFAULT ∧ evt t (bankPage n) 2 = true ∧ (bank t n).route = none ∧
    (n < 48 → ∀ q < 4, get t (BNK.QSTAT_ON n q) = 0) ∧ sameOff s t [bankPage n, pEXC, pFLT, pLIN, pMGT] ∧ sameMem s t) ∧
  (∀ s : State, pstate s pEXC ≠ stOFF → pstate s pEXC ≠ stFAULT → Answers .drvflt s fun t =>
    pstate t pEXC = stFAULT ∧ evt t pEXC 9 = true ∧ (∀ n < 48, ∀ q < 4, flag t (BNK.QSTAT_ON n q) = false) ∧
    (∀ n < 48, bankDrives s n = true → pstate t (bankPage n) = stFAULT) ∧
    sameOff s t ([pEXC, pFLT, pLIN, pMGT] ++ (List.range 48).map bankPage) ∧ sameMem s t) ∧
  (∀ (s : State) (d : Nat) (good : Bool) (vals : List CheckVal), (3 ≤ d ∧ d ≤ 8) ∨ d = 10 → Answers (.selfCheck d good vals) s fun t =>
    t.pwr.l0Seen = true ∧ t.pwr.l0Bad = (if s.pwr.l0Seen then s.pwr.l0Bad else !good) ∧ sameMem s t ∧
    (pstate s pMTR ≠ stSEALED → (∀ n ∈ domainBanks d, producing s n = false → get t (hBUSY (bankPage n)) = 0) ∧
      sameRegs s t (hPEVT pMGT :: (domainBanks d).map fun n => hBUSY (bankPage n)))) ∧
  (∀ (s : State) (g : Nat), g < 6 → bit s.pwr.ecoPend g = true → Answers (.ecoChange g) s fun t =>
    bit t.pwr.eco g = bit (get s PWR.AFEMD_ECO) g ∧ bit t.pwr.ecoPend g = false ∧
    (∀ n ∈ domainBanks (3 + g), get t (BNK.SETST_SET n) = 0xFFFF) ∧
    sameRegs s t ((domainBanks (3 + g)).map BNK.SETST_SET) ∧ sameMem s t) ∧
  (∀ s : State, pstate s pFLT ≠ stOFF → Answers (.romCheck false) s fun t =>
    pstate t pFLT = stFAULT ∧ evt t pFLT 8 = true ∧ sameOff s t [pFLT, pLIN, pMGT] ∧ unlogged t = unlogged s) ∧
  (∀ (s : State) (temps : List Int), temps.length = 6 → Answers (.dieTempUpdate temps) s fun t =>
    (∀ i < 6, tget t.dieT i 0 = temps.getD i 0) ∧ t = { s with dieT := t.dieT })

/-- R128, R129: ROTATION_PHASE. -/
def Obligations.RotationRunsItsPhases : Prop :=
  ∀ (s : State) (n : Nat) (avg : Int) (r : Rot), n < 49 → (bank s n).rot = some r → r.paused = false → r.windDown = false →
    fesRuns s = true →
    (r.phase = 1 → Answers (.rotationPhase n avg) s fun t => t = setRot s n (some { r with phase := 2 })) ∧
    (r.phase = 2 → Answers (.rotationPhase n avg) s fun t => t = setRot s n (some { r with phase := 3, z := avg })) ∧
    (r.phase = 3 → r.ch < 16 →
      let m := l0Slot s n r.ch r.ch
      let gbg := (roundEven (0x333333 * 2 ^ 30) (avg - r.z).toNat).toNat
      (r.z < avg → r.z.natAbs * 100 ≤ 2 * 0x666666 → (gbg : Int) * 100 ≤ get s (MGT.CG0_G0 m) * 101 →
        (get s (MGT.CG0_G0 m) : Int) * 99 ≤ (gbg : Int) * 100 → gbg < 2 ^ 32 → Answers (.rotationPhase n avg) s fun t =>
          get t (MGT.CBGG_GBG m) = gbg ∧ get t (MGT.CBGO_OBG m) = ofSigned 32 (r.z * 256) ∧ bit (bank t n).bg r.ch = true ∧
          (bank t n).rot = some { r with phase := 4 } ∧ sameRegs s t [MGT.CBGG_GBG m, MGT.CBGO_OBG m] ∧ sameMem s t) ∧
      (avg ≤ r.z → Answers (.rotationPhase n avg) s fun t =>
        (bank t n).rot = some { r with phase := 4 } ∧ (bank t n).bg = (bank s n).bg ∧ sameRegs s t [hPEVT pMGT] ∧ sameMem s t)) ∧
    (r.phase = 4 → r.ch < 16 → Answers (.rotationPhase n avg) s fun t =>
      (bank t n).rot = some { ch := nextRotCh s n r.ch, phase := if nextRotCh s n r.ch = 16 then 2 else 1 } ∧
      (∀ k < 16, bit (bank t n).bg k = bit (bank s n).bg k) ∧ (∀ m, m ≠ n → bank t m = bank s m) ∧ t = { s with banks := t.banks })

/-- R138, R140, R175, R250: PATH_M_OUTPUT and PATH_E_SAMPLE. -/
def Obligations.OutputsReachTheirSlots : Prop :=
  (∀ (s : State) (ch g : Nat) (bits : List Bool), ch < 784 → gridNext s ch g = false → exec (.pathMOutput ch g bits) s = .next s) ∧
  (∀ (s : State) (ch g : Nat) (bits : List Bool), ch < 784 → gridNext s ch g = true → Answers (.pathMOutput ch g bits) s fun t =>
    (chan t ch).lastM = some g ∧
    (∀ c < 64, get s (STM.CCFG_PATH c) = 0 → ctxHas s c ch = true → 2 ≤ cstate s c →
      ∀ z ∈ (ctx t c).cur, z.g = g → (ch, none) ∉ z.vals) ∧
    sameOff s t [pFLT, pLIN, pSCH, pMGT] ∧ sameMem s t) ∧
  (∀ (s : State) (n : Nat) (x : List Bool) (xs : List (List Bool)),
    let u := feedE s 0 n x
    let o := outCode u 1 0 (n * 128 - 128) (n * 128) (settlingE u 0 n) (rawE u 0)
    Answers (.pathESample n (x :: xs)) s fun t =>
    (domainOn s 13 = true → t.cnv.ringLast = some n ∧ memWord t (ringAddr n 0) = sampleWord o.1 o.2) ∧
    (∀ a, a < ringAddr n 0 ∨ ringAddr n 0 + 4 * min (xs.length + 1) 784 ≤ a → memGet t a = memGet s a) ∧
    (domainOn s 13 = false → sameMem s t))

/-- R106: the four commands of OCMD. That a port whose PM was written 0 while it was in FAULT is OFF once cleared is the model's choice (log
entry 122). -/
def Obligations.PortCommands : Prop :=
  ∀ (s e : State) (src : Src) (p : Nat), p < 16 →
    let frame (t : State) : Prop := sameOff s t [pOPT, pTWL, pMTR, pMGT, pSVC, pTKE, pTKW] ∧ sameMem s t
    let cleared (r : Nat) : Nat :=
      if get s (OPTP.PCFG_PM r) = 0 then stOFF else if pstate s pOPT = stSEALED then stRUN else stIDLE
    let kept (t : State) : Prop := ∀ r < 16, r ≠ p → get t (OPTP.PST_STATE r) = get s (OPTP.PST_STATE r)
    (Taken s src pOPT 0x40 [wd (p * 256 + 1)] false e → Answers (.ocmdStart src p) s fun t =>
      get t (OPTP.PST_STATE p) = stRUN ∧ (oport t p).eff = get s (OPTP.PSET_SB p) * 256 + get s (OPTP.PSET_SA p) ∧
      (oport t p).dark = decide (get s (OPTP.PCFG_PM p) = 1) ∧
      (get s (OPTP.PCFG_PM p) ≠ 1 → bit (get t (BNK.SETST_SET 48)) p = true) ∧
      bit (get t (BNK.CHST_OPN 48)) p = false ∧ kept t ∧ frame t) ∧
    (Taken s src pOPT 0x40 [wd (p * 256 + 2)] false e → Answers (.ocmdStop src p) s fun t =>
      get t (OPTP.PST_STATE p) = stIDLE ∧ get t (OPTP.PST_DRV p) = 0 ∧ get t (OPTP.PST_LIM p) = 0 ∧ get t (OPTP.PST_BLIND p) = 0 ∧
      (oport t p).lit = 0 ∧ kept t ∧ frame t) ∧
    (Taken s src pOPT 0x40 [wd (p * 256 + 3)] false e → Answers (.ocmdClear src p) s fun t =>
      get t (OPTP.PST_CAUSE p) = 0 ∧ get t (OPTP.PST_STATE p) = cleared p ∧ kept t ∧ frame t) ∧
    (Taken s src pOPT 0x40 [wd (p * 256 + 4)] false e → Answers (.ocmdGclear src p) s fun t =>
      (∀ r < 16, if get s (OPTP.PCFG_FGRP r) = p ∧ get s (OPTP.PST_STATE r) = stFAULT then
          get t (OPTP.PST_CAUSE r) = 0 ∧ get t (OPTP.PST_STATE r) = cleared r
        else get t (OPTP.PST_STATE r) = get s (OPTP.PST_STATE r)) ∧ frame t)

/-- R96, R98, R99, R101: BOOST_READY, PWM_PERIOD, PMFS_LEARN (its rounding is the model's choice, log entry 109), MONDEV, MONDEV_CLEAR, OPWRLIM and OPWRLIM_END. -/
def Obligations.PortsLightAndMeasure : Prop :=
  (∀ (s : State) (p : Nat), p < 16 →
    (get s (OPTP.PST_STATE p) = stRUN → (oport s p).dark = true → s.boostUp = true → Answers (.boostReady p) s fun t =>
      let m := if roleDrives s then contMask s p else 0
      get t (OPTP.PST_DRV p) = (if m = 0 then 0 else 1) ∧ (s.optK < 10 ^ 30 → m ≠ 0 → get t (OPTP.PST_LIM p) = 1) ∧
      (oport t p).dark = false ∧ (oport t p).lit = m ∧ bit (get t (BNK.SETST_SET 48)) p = true ∧
      (∀ r < 16, r ≠ p → oport t r = oport s r) ∧ sameRegs s t [OPTP.PST_DRV p, OPTP.PST_LIM p, BNK.SETST_SET 48] ∧ sameMem s t) ∧
    (∀ ma mb ia ib va vb : Nat, Answers (.pwmPeriod p ma mb ia ib va vb) s fun t =>
      let want := get s (OPTP.PSET_SB p) * 256 + get s (OPTP.PSET_SA p)
      get t (OPTP.PMON_MONA p) = ma % 2 ^ 16 ∧ get t (OPTP.PMON_MONB p) = mb % 2 ^ 16 ∧ get t (OPTP.PIMS_IA p) = ia % 2 ^ 16 ∧
      get t (OPTP.PIMS_IB p) = ib % 2 ^ 16 ∧
      get t (OPTP.PVF_VFA p) = (if bit (litLast s p) 0 then va % 2 ^ 16 else get s (OPTP.PVF_VFA p)) ∧
      get t (OPTP.PVF_VFB p) = (if bit (litLast s p) 1 then vb % 2 ^ 16 else get s (OPTP.PVF_VFB p)) ∧
      (oport t p).eff = (if (oport s p).comp = 0 ∧ (oport s p).probing = false then want else (oport s p).eff) ∧
      (oport t p).comp ≤ (oport s p).comp ∧
      (let n := (oport s p).rem.1 + 16 * duty (effCode s p false) * pwmCycles
       (oport s p).eff = want → (oport s p).comp = 0 → (oport s p).probing = false → bit (oport s p).lit 0 = true → wholeLight ≤ n →
         (oport t p).rem.1 = n % wholeLight ∧ ∃ i, Sent s t (.optDrive p 1 (n / wholeLight) i)) ∧
      sameRegs s t ([OPTP.PMON_MONA p, OPTP.PMON_MONB p, OPTP.PIMS_IA p, OPTP.PIMS_IB p, OPTP.PVF_VFA p, OPTP.PVF_VFB p, OPTP.PST_DRV p,
        OPTP.PST_BLIND p, mdevFld p false, mdevFld p true, BNK.SETST_SET 48] ++ (List.range 16).map OPTP.PST_LIM ++ evts pOPT) ∧ sameMem s t) ∧
    (∀ (b : Bool) (x : Nat), get s (OPTP.PST_STATE p) = stRUN → get s (pmfsFld p b) = 0 → effCode s p b ≠ 0 →
      Answers (.pmfsLearn p b x) s fun t =>
        (roundUpHalf (x * 10 ^ 30) (decay (255 - effCode s p b)) < 65536 →
          get t (pmfsFld p b) = roundUpHalf (x * 10 ^ 30) (decay (255 - effCode s p b))) ∧
        sameRegs s t [pmfsFld p b] ∧ unlogged t = unlogged s) ∧
    (∀ b : Bool,
      (deviates s p b = true → Answers (.mondev p b) s fun t =>
        get t (mdevFld p b) = 1 ∧ evt t pOPT 11 = true ∧ sameRegs s t (mdevFld p b :: evts pOPT) ∧ unlogged t = unlogged s) ∧
      (regulates s p b = false ∨ deviates s p b = true → exec (.mondevClear p b) s = .next s) ∧
      (regulates s p b = true → deviates s p b = false → Answers (.mondevClear p b) s fun t => get t (mdevFld p b) = 0 ∧ sameRegs s t [mdevFld p b] ∧ unlogged t = unlogged s))) ∧
  (∀ (s : State) (x : Nat), x < 2 ^ 16 →
    let lim := opLimit2 s * 100 * 10 ^ 30
    let kl := if lim < 2 * opLoadRaw s then lim * 10 ^ 30 / (2 * opLoadRaw s) else 10 ^ 30
    let km := if x = 0 then 10 ^ 30 else min (10 ^ 30) (opLimit2 s * s.optK / (2 * x))
    Answers (.opwrlim x) s fun t =>
      get t OPT.OPMEAS_PWR = x ∧ t.optK = (if roleDrives s then min kl km else 10 ^ 30) ∧
      (t.optK ≠ s.optK → t.optK < 10 ^ 30 → ∀ p < 16, (oport s p).lit ≠ 0 → get t (OPTP.PST_LIM p) = 1) ∧
      (10 ^ 30 ≤ s.optK → t.optK < 10 ^ 30 → evt t pOPT 14 = true) ∧
      (t.optK ≠ s.optK → t.optK = 10 ^ 30 → ∀ p < 16, get t (OPTP.PST_LIM p) = 0) ∧
      sameRegs s t (OPT.OPMEAS_PWR :: evts pOPT ++ (List.range 16).map OPTP.PST_LIM) ∧ sameMem s t) ∧
  (∀ s : State, (s.optK < 10 ^ 30 → exec .opwrlimEnd s = .next s) ∧
    (10 ^ 30 ≤ s.optK → Answers .opwrlimEnd s fun t => (∀ p < 16, (oport t p).tail = false) ∧ sameRegs s t [] ∧ sameMem s t))

/-- R96, R103–R105, R107: PFAULT, BOOST, PROBE, DIAG_BLIND and BLIND_TIMEOUT. -/
def Obligations.PortFaultsAndProbes : Prop :=
  (∀ (s : State) (p c g cur vf : Nat) (b : Bool), p < 16 → portCause s p b cur vf = some (c, g) → portLive s p = true →
    Answers (.pfault p ⟨b, cur, vf⟩) s fun t =>
    get t (OPTP.PST_STATE p) = stFAULT ∧ get t (OPTP.PST_CAUSE p) = c ∧ get t (OPTP.PST_DRV p) = 0 ∧
    bit (get t (BNK.CHST_OPN 48)) p = true ∧ (chan t (768 + p)).opnFrom = some g ∧ evt t pOPT 10 = true ∧
    (∀ r < 16, r ≠ p → if get s (OPTP.PCFG_FGRP p) ≠ 0 ∧ get s (OPTP.PCFG_FGRP r) = get s (OPTP.PCFG_FGRP p) ∧ portLive s r = true then
        get t (OPTP.PST_STATE r) = stFAULT ∧ get t (OPTP.PST_CAUSE r) = 8
      else get t (OPTP.PST_STATE r) = get s (OPTP.PST_STATE r) ∧ get t (OPTP.PST_CAUSE r) = get s (OPTP.PST_CAUSE r)) ∧
    sameOff s t [pOPT, pMGT] ∧ sameMem s t) ∧
  (∀ (s : State) (p c g cur vf : Nat) (b : Bool), p < 16 → portCause s p b cur vf = some (c, g) → get s (OPTP.PST_STATE p) = stFAULT →
    get s (OPTP.PST_CAUSE p) = 8 → (oport s p).faultP = some (pwmNow s) → Answers (.pfault p ⟨b, cur, vf⟩) s fun t =>
      get t (OPTP.PST_CAUSE p) = c ∧ evt t pOPT 10 = true ∧ sameRegs s t (OPTP.PST_CAUSE p :: evts pOPT) ∧ sameMem s t) ∧
  (∀ s : State, Answers .boost s fun t =>
    t.boostUp = false ∧
    (∀ p < 16, if portLive s p = true then get t (OPTP.PST_STATE p) = stFAULT ∧ get t (OPTP.PST_CAUSE p) = 9 ∧ get t (OPTP.PST_DRV p) = 0 ∧
        evt t pOPT 10 = true
      else get t (OPTP.PST_STATE p) = get s (OPTP.PST_STATE p)) ∧
    sameOff s t [pOPT, pMGT] ∧ sameMem s t) ∧
  (∀ (s : State) (p : Nat), p < 16 → get s (OPTP.PST_STATE p) = stRUN →
    (∀ b : Bool, flag s OPT.PRB_EN = true → get s (OPTP.PCFG_PM p) = 1 → probeColour s p = some b → Answers (.probe p) s fun t =>
      get t (OPTP.PST_BLIND p) = 0 ∧ t.out = s.out ++ [.optDrive p (1 + b.toNat) probeCycles (driveCurrent s p b)] ∧
      (oport t p).comp = probeLight - 16 * duty (effCode s p b) ∧ (oport t p).probing = true ∧ (oport t p).colB = !b ∧
      sameRegs s t [OPTP.PST_BLIND p] ∧ sameMem s t) ∧
    (roleDrives s = true → flag s (OPTP.PST_BLIND p) = false →
      blindNow s p = true → Answers (.diagBlind p) s fun t =>
        get t (OPTP.PST_BLIND p) = 1 ∧ evt t pOPT 12 = true ∧ sameRegs s t (OPTP.PST_BLIND p :: evts pOPT) ∧ unlogged t = unlogged s)) ∧
  (∀ (s : State) (p : Nat), p < 16 → flag s (OPTP.PST_BLIND p) = true → (oport s p).blindRaised = false →
    roleDrives s = true → Answers (.blindTimeout p) s fun t =>
      evt t pOPT 13 = true ∧ sameRegs s t (evts pOPT) ∧ unlogged t = unlogged (setOport s p { oport s p with blindRaised := true }) ∧
      exec (.blindTimeout p) t = .next t)

/-- R157, R158: LCMD SAVE, LOAD and DEFAULT, a write of TESTT, and the ends of SAVE and LOAD. -/
def Obligations.LinearisationSets : Prop :=
  (∀ (s e : State) (src : Src),
    (∀ op < 2, Taken s src pLIN 0xC0 [wd (op + 1)] false e → Answers (if op = 0 then .lcmdSave src else .lcmdLoad src) s fun t =>
      get t (hBUSY pLIN) = 1 ∧ t.pwr.linOp = op + 1 ∧ get t (hLIM pLIN) = 784 ∧ get t (hPOS pLIN) = 0 ∧ get t (hPCT pLIN) = 0 ∧
      t.flash = s.flash ∧ sameBut s t ([hBUSY pLIN, hLIM pLIN, hPOS pLIN, hPCT pLIN] ++ (List.range 784).map LIN.LSTAT_TSTALE ++ sts pLIN ++ svcs) [pTWL] ∧ sameMem s t) ∧
    (Taken s src pLIN 0xC0 [3#32] false e → Answers (.lcmdDefault src) s fun t =>
      (∀ k < 24, get t (LIN.COEF_C k (get s LIN.LSEL_CH)) = if k = 4 then 0x3F800000 else 0) ∧
      sameBut s t ((List.range 24).map (fun k => LIN.COEF_C k (get s LIN.LSEL_CH)) ++ (List.range 784).map LIN.LSTAT_TSTALE ++ sts pLIN ++ svcs)
        [pTWL, pMTR, pMGT] ∧ sameMem s t) ∧
    (∀ w : Word, Taken s src pLIN 0xC8 [w] false e → Answers (.testtWrite src w) s fun t =>
      let v := (evalPoly (coefXF s (get s LIN.LSEL_CH)) (XF.ofF32 (wd (get s LIN.TESTX_X))) (XF.ofF32 w)).toF32
      get t LIN.TESTT_T = w.toNat ∧ get t LIN.TESTY_Y = v.1.toNat ∧ (v.2 = true → evt t pLIN 11 = true) ∧
      sameBut s t ([LIN.TESTT_T, LIN.TESTY_Y] ++ (List.range 784).map LIN.LSTAT_TSTALE ++ sts pLIN ++ svcs) [pTWL] ∧ sameMem s t)) ∧
  (∀ s : State,
    (s.pwr.linOp = 1 → Answers .lcmdSaveDone s fun t =>
      (∀ f : Fld, isSetCode f.code = true → get t f = get s f ∧ tget t.flash.lin f.code f.rst =
        if chSealed s (setCodeCh f.code) then tget s.flash.lin f.code f.rst else get s f) ∧
      get t (hBUSY pLIN) = 0 ∧ get t (hPCT pLIN) = 100 ∧ evt t pLIN 3 = true ∧
      sameRegs s t ([hBUSY pLIN, hPOS pLIN, hPCT pLIN] ++ evts pLIN) ∧ sameMem s t) ∧
    (s.pwr.linOp = 2 → rising s.flash.lin = true → (∀ x ∈ s.flash.lin, isSetCode x.1 = true) → Answers .lcmdLoadDone s fun t =>
      (∀ f : Fld, isSetCode f.code = true → get t f =
        if chSealed s (setCodeCh f.code) then get s f else tget s.flash.lin f.code f.rst) ∧
      get t (hBUSY pLIN) = 0 ∧ get t (hPCT pLIN) = 100 ∧ evt t pLIN 3 = true ∧ t.flash = s.flash ∧
      (∀ f : Fld, isSetCode f.code = false → (∀ g ∈ [hBUSY pLIN, hPOS pLIN, hPCT pLIN] ++ (List.range 784).map LIN.LSTAT_TSTALE ++ sts pLIN, f.code ≠ g.code) → get t f = get s f) ∧
      sameMem s t))

/-- R150, R156: TSTALE and EVAL_TEST. -/
def Obligations.LinearisationChecks : Prop :=
  (∀ (s : State) (ch : Nat), ch < 784 → lenOf s ch = true → get s (LIN.LCFG_TSRC ch) = 1 → Answers (.tstale ch) s fun t =>
    get t (LIN.LSTAT_TSTALE ch) = 1 ∧ evt t pLIN 8 = true ∧ sameRegs s t (LIN.LSTAT_TSTALE ch :: evts pLIN) ∧ unlogged t = unlogged s) ∧
  (∀ s : State, pstate s pLIN ≠ stOFF → Answers (.evalTest false) s fun t =>
    pstate t pLIN = stFAULT ∧ evt t pLIN 10 = true ∧ sameRegs s t (sts pLIN) ∧ unlogged t = unlogged s) ∧
  (∀ s : State, exec (.evalTest true) s = .next s)

/-- R162–R164, R172: MCMD SEAL, UNSEAL and VERIFY, and SEALED, SEALFAIL, UNSEALED and VERIFY_DONE. -/
def Obligations.SealAndUnseal : Prop :=
  (∀ (s e : State) (src : Src) (j : Bool),
    (Taken s src pMTR 0x40 [1#32] j e → Answers (.seal src j) s fun t =>
      get t (hBUSY pMTR) = 1 ∧ get t MTR.MSTAT_BRK = 0 ∧
      t.mtr = { s.mtr with op := some (.sealing ⟨recFields s, pdigNow s, get s MTR.EVCNT_CNT + 1⟩ (srcCode src) (roleField s src)) } ∧
      sameRegs s t ([hBUSY pMTR, MTR.MSTAT_SEALN, MTR.MSTAT_BRK, hLIM pMTR, hPOS pMTR, hPCT pMTR] ++ svcs) ∧ sameMem s t) ∧
    (Taken s src pMTR 0x40 [2#32] j e → s.mtr.op ≠ none → Answers (.unseal src j) s fun t =>
      t.mtr = s.mtr ∧ sameRegs s t (MTR.MSTAT_SEALN :: svcs) ∧ sameMem s t) ∧
    (Taken s src pMTR 0x40 [2#32] j e → s.mtr.op = none → Answers (.unseal src j) s fun t =>
      get t (hBUSY pMTR) = 1 ∧ t.mtr.op = some (.unsealing (srcCode src) (roleField s src)) ∧ pstate t pMTR = pstate s pMTR ∧ t.mtr.record = s.mtr.record ∧
      (∀ n < 49, bstate t n = bstate s n) ∧ get t MTR.EVCNT_CNT = get s MTR.EVCNT_CNT) ∧
    (Taken s src pMTR 0x40 [3#32] (flag s MTR.MSTAT_SEALN) e → Answers (.verify src) s fun t =>
      get t (hBUSY pMTR) = 1 ∧ t.mtr = { s.mtr with verify := some (pdigNow s) } ∧
      sameRegs s t ([hBUSY pMTR, hLIM pMTR, hPOS pMTR, hPCT pMTR] ++ svcs) ∧ sameMem s t)) ∧
  (∀ (s : State) (r : SealRec) (src role : Nat), s.mtr.op = some (.sealing r src role) →
    (Answers .sealed s fun t =>
      pstate t pMTR = stSEALED ∧ get t MTR.MSTAT_EVS = 1 ∧ get t MTR.MSTAT_FCAUSE = 0 ∧ get t (hBUSY pMTR) = s.mtr.verify.isSome.toNat ∧
      get t MTR.EVCNT_CNT = min (get s MTR.EVCNT_CNT + 1) (2 ^ 32 - 1) ∧ (∀ k < 12, get t (MTR.PDIG k) = (r.pdig.getD k 0#32).toNat) ∧
      evt t pMTR 8 = true ∧ t.mtr.record = some r ∧ t.mtr.op = none ∧
      (∀ n < 49, bstate t n = if designated s n = true ∧ ((bstate s n = stIDLE ∧ s.pwr.l0Bad = false ∧ (bank s n).checking = false) ∨
        bstate s n = stRUN ∨ bstate s n = stTEST) then stSEALED else bstate s n)) ∧
    (Answers .sealfail s fun t =>
      get t (hBUSY pMTR) = s.mtr.verify.isSome.toNat ∧ evt t pMTR 12 = true ∧ sameRegs s t (hBUSY pMTR :: evts pMTR) ∧
      unlogged t = unlogged { s with mtr := { s.mtr with op := none } })) ∧
  (∀ (s : State) (src role : Nat), s.mtr.op = some (.unsealing src role) → Answers .unsealed s fun t =>
    pstate t pMTR = stIDLE ∧ t.mtr.record = none ∧ t.mtr.op = none ∧ evt t pMTR 9 = true ∧ get t (hBUSY pMTR) = s.mtr.verify.isSome.toNat ∧
    get t MTR.EVCNT_CNT = min (get s MTR.EVCNT_CNT + 1) (2 ^ 32 - 1) ∧
    (∀ n < 49, bstate t n = if designated s n = true ∧ bstate s n = stSEALED then stIDLE else bstate s n) ∧
    sameOff s t ([pMTR, pMGT, pFLT, pLIN, pEXC, pOPT] ++ (List.range 48).map bankPage) ∧ sameMem s t) ∧
  (∀ (s : State) (d : List Word), s.mtr.verify = some d → Answers .verifyDone s fun t =>
    (∀ k < 12, get t (MTR.PDIG k) = (d.getD k 0#32).toNat) ∧ get t (hBUSY pMTR) = s.mtr.op.isSome.toNat ∧ evt t pMTR 3 = true ∧
    sameRegs s t ([hBUSY pMTR, hPOS pMTR, hPCT pMTR] ++ (List.range 12).map MTR.PDIG ++ evts pMTR) ∧
    t.mtr = { s.mtr with verify := none } ∧ sameMem s t)

/-- R165, R166, R170, R191: LID_OPEN, PDIG_CHECK, ITEM_CHECK, RELOAD_RETRY and METRO_CHECKPOINT. -/
def Obligations.SealIsWatched : Prop :=
  (∀ s : State, Answers .lidOpen s fun t =>
    get t MTR.MSTAT_LIDO = 1 ∧ get t MTR.EVCNT_CNT = min (get s MTR.EVCNT_CNT + 1) (2 ^ 32 - 1) ∧ evt t pMTR 10 = true ∧
    t.mtr.audit.length = min (s.mtr.audit.length + 1) 1024 ∧ (s.mtr.audit.length < 1024 → t.mtr.audit.tail = s.mtr.audit) ∧
    sameRegs s t ([MTR.MSTAT_LIDO, MTR.EVCNT_CNT] ++ evts pMTR) ∧ sameMem s t) ∧
  (∀ (s : State) (r : SealRec), pstate s pMTR = stSEALED → mtpRuns s = true → s.mtr.record = some r →
    let faulted (c : Nat) (t : State) : Prop := pstate t pMTR = stFAULT ∧ get t MTR.MSTAT_FCAUSE = c ∧ evt t pMTR 13 = true ∧
      evt t pMTR 2 = true ∧ t.mtr.record = some r ∧ get t MTR.EVCNT_CNT = get s MTR.EVCNT_CNT ∧ (∀ n < 49, bstate t n = bstate s n)
    (recFields s ≠ r.fields → Answers .pdigCheck s (faulted 1)) ∧ (recFields s = r.fields → exec .pdigCheck s = .next s) ∧
    Answers (.itemCheck false) s (faulted 2) ∧ exec (.itemCheck true) s = .next s) ∧
  (∀ (s : State) (r : SealRec), pstate s pMTR = stFAULT → mtpRuns s = true → s.mtr.record = some r → s.mtr.op = none →
    r.fields.map (·.1) = legalFlds s →
    (∀ x ∈ r.fields, x.2 < 2 ^ x.1.width) → Answers (.reloadRetry true) s fun t =>
      pstate t pMTR = stSEALED ∧ get t MTR.MSTAT_FCAUSE = 0 ∧ (∀ k < 12, get t (MTR.PDIG k) = (r.pdig.getD k 0#32).toNat) ∧
      t.mtr.record = some r ∧ t.mtr.recGood = true ∧ get t MTR.EVCNT_CNT = get s MTR.EVCNT_CNT ∧
      ∀ x ∈ r.fields, x.1 ≠ PWR.AFEMD_ECO → get t x.1 = x.2) ∧
  (∀ (s : State) (c : Nat), c < 64 → isMctx s c = true → cstate s c ≠ stOFF → sealOn s = true →
    (mtpRuns s = true → ckIsDue s c = false → cnvUp s = true → ckLen true ≤ freeWords s (classOf s c) → Answers (.metroCheckpoint c) s fun t =>
      t.cnv.blocks.length = s.cnv.blocks.length + 1 ∧ (∀ b ∈ s.cnv.blocks, b ∈ t.cnv.blocks) ∧
      (ctx t c).newest = some (get s (STM.CSEQ_SEQ c)) ∧ get t (STM.CSEQ_SEQ c) = (get s (STM.CSEQ_SEQ c) + 1) % 2 ^ 32 ∧
      get t MTR.CKCNT_N = (get s MTR.CKCNT_N + 1) % 2 ^ 32 ∧ (ctx t c).sinceMk = 0 ∧ (ctx t c).mkDue = none ∧
      sameOff s t [pSTM, pQUE, pCDC, pCNV, pMTR, pMGT]) ∧
    (mtpRuns s = false → exec (.metroCheckpoint c) s = .next (setCtx s c { ctx s c with mkDue := some 0 })))

/-- R192, R193, R201, R202, R211: CCMD HOLD, RESUME and CLOSE, ITEM_WRITE, HOLDTO, DESCRIPTOR_ERROR and ASMERR. That ASMERR gives up what
the assembler holds is the model's choice (log entry 111). -/
def Obligations.StreamAssembly : Prop :=
  (∀ (s e : State) (src : Src),
    let c := get s STM.CSEL_CTX
    let left (k : Nat) (t : State) : Prop := (ctx t c).cmd = k ∧ sameRegs s t (STM.CSTAT_NCH c :: svcs) ∧
      Untouched (setCtx s c { ctx s c with cmd := k }) t src
    (Taken s src pSTM 0x4C [1#32] false e → Answers (.ccmdHold src) s (left 1)) ∧
    (Taken s src pSTM 0x4C [2#32] false e → Answers (.ccmdResume src) s (left 2)) ∧
    (Taken s src pSTM 0x4C [3#32] false e → ctxActive s c = true → Answers (.ccmdClose src) s (left (if (ctx s c).cmd = 0 then 3 else (ctx s c).cmd)))) ∧
  (∀ (s : State) (c : Nat) (b : ClosedBlk) (r : List ClosedBlk), c < 64 → (ctx s c).closed = b :: r → pstate s pQUE ≠ stOFF →
    pstate s pQUE ≠ stFAULT → b.slots.all Slot.full = true → (queue s c).part ≤ (itemWords s c b).length →
    let kept (t : State) : Prop := (∀ q < 64, q ≠ c → queue t q = queue s q) ∧
      sameOff s t [pSCH, pSTM, pQUE, pCDC, pCNV, pMGT] ∧ sameMem s t
    ((itemWords s c b).length ≤ (queue s c).part + queRoom s c → Answers (.itemWrite c) s fun t =>
      (queue t c).items = (queue s c).items ++ [itemOf s c b] ∧ (queue t c).part = 0 ∧ (ctx t c).closed = r ∧
      get t (QUE.QITEMS_N c) = (get s (QUE.QITEMS_N c) + 1) % 2 ^ 32 ∧ kept t) ∧
    ((queue s c).part + queRoom s c < (itemWords s c b).length → Answers (.itemWrite c) s fun t =>
      (queue t c).items = (queue s c).items ∧ (queue t c).part = (queue s c).part + queRoom s c ∧ queRoom t c = 0 ∧
      (ctx t c).closed = b :: r ∧ get t (QUE.QITEMS_N c) = get s (QUE.QITEMS_N c) ∧
      ((queue s c).heldAt = none → get t (QUE.QSTAT_HELD c) = 1 ∧ evt t pQUE 12 = true ∧ (queue t c).heldAt = some s.cyc) ∧
      ((queue s c).heldAt.isSome = true → get t (QUE.QSTAT_HELD c) = get s (QUE.QSTAT_HELD c) ∧ (queue t c).heldAt = (queue s c).heldAt) ∧
      kept t)) ∧
  (∀ (s : State), pstate s pQUE = stRUN →
    let down (t : State) : Prop := pstate t pQUE = stFAULT ∧ evt t pQUE 2 = true ∧ (∀ q < 64, (queue t q).items = []) ∧
      (∀ q, 64 ≤ q → (queue t q).items = (queue s q).items) ∧ sameOff s t [pSCH, pSTM, pQUE, pCDC, pCNV, pMGT] ∧ sameMem s t
    (∀ c < 64, flag s (QUE.QSTAT_HELD c) = true → Answers (.holdto c) s fun t => down t ∧ evt t pQUE 15 = true) ∧
    Answers .descriptorError s down) ∧
  (∀ s : State, pstate s pSTM ≠ stOFF → pstate s pSTM ≠ stFAULT → Answers .asmerr s fun t =>
    pstate t pSTM = stFAULT ∧ evt t pSTM 10 = true ∧ evt t pSTM 2 = true ∧
    (∀ c < 64, ctxActive s c = true → (ctx t c).cur = [] ∧ (ctx t c).closed = [] ∧ (ctx t c).stopped.isSome = true ∧
      (cstate t c = stIDLE ∨ cstate t c = stARMED)) ∧
    (∀ q, (queue t q).items = (queue s q).items) ∧ sameOff s t [pSCH, pSTM, pQUE, pCDC, pCNV, pMGT] ∧ sameMem s t)

/-- R205, R207, R210: POP, QCMD FLUSH and FLUSHED. -/
def Obligations.QueueReads : Prop :=
  (∀ (s e : State) (src : Src) (off : Nat), off < 256 → Comes s src e → worst (violRead e src pQUE (0x400 + 4 * off) 1) = none →
    let q := get s QUE.QSEL_Q
    ((queue s q).items = [] → ∀ bad : Bool, Answers (.pop src off bad) s fun t =>
      Replied t src 0 [0#32] ∧ sameRegs s t svcs ∧ Untouched s t src) ∧
    (∀ (it : QItem) (r : List QItem), (queue s q).items = it :: r →
      (Answers (.pop src off false) s fun t =>
        Replied t src 0 [poisonWord it (queue s q).popped false (queue s q).psn (it.ws.getD (queue s q).popped 0#32)] ∧
        (if (queue s q).popped + 1 < it.ws.length then (queue t q).items = it :: r ∧ (queue t q).popped = (queue s q).popped + 1
          else (queue t q).items = r ∧ (queue t q).popped = 0) ∧
        (∀ k, k ≠ q → queue t k = queue s k) ∧ sameOff s t [pQUE, pSTM, pCDC, pCNV, pMGT, pSVC, pTKE, pTKW] ∧ sameMem s t) ∧
      (Answers (.pop src off true) s fun t =>
        get t (QUE.QPERR_N q) = min (get s (QUE.QPERR_N q) + 1) 65535 ∧ evt t pQUE 11 = true ∧
        (∀ k, k ≠ q → queue t k = queue s k) ∧ sameOff s t [pQUE, pSTM, pCDC, pCNV, pMGT, pSVC, pTKE, pTKW] ∧ sameMem s t))) ∧
  (∀ (s e : State) (src : Src), Taken s src pQUE 0x70 [1#32] false e → Answers (.qcmdFlush src) s fun t =>
    let q := get s QUE.QSEL_Q
    get t (QUE.QSTAT_FLP q) = 1 ∧ get t (hBUSY pQUE) = 1 ∧ (queue t q).flushN = (queue s q).items.length ∧ (queue t q).doomed = copying s q ∧
    (queue t q).items = (queue s q).items ∧ sameRegs s t ([QUE.QSTAT_FLP q, hBUSY pQUE, QUE.QPEAK_PK q] ++ (List.range 64).map QUE.QSTAT_BYP ++ svcs) ∧ sameMem s t) ∧
  (∀ (s : State) (q : Nat), 64 ≤ q → q < 68 → flag s (QUE.QSTAT_FLP q) = true →
    ((queue s q).doomed ≠ [] → exec (.flushed q) s = .next s) ∧
    ((queue s q).doomed = [] → Answers (.flushed q) s fun t =>
    let x := queue s q
    get t (QUE.QSTAT_FLP q) = 0 ∧ evt t pQUE 14 = true ∧
    (queue t q).items = (if x.popped = 0 then x.items.drop x.flushN else x.items.take 1 ++ x.items.drop (max x.flushN 1)) ∧
    (queue t q).flushN = 0 ∧ (flag t (hBUSY pQUE) = flushing t) ∧ (∀ k, k ≠ q → queue t k = queue s k) ∧
    sameOff s t [pQUE, pSTM, pCDC, pCNV, pMGT] ∧ sameMem s t))

/-- R185, R191, R205, R213, R223, R241, R245, R246: ITEM_TAKE, BLOCK_RELEASE, DEVICE_CHECKPOINT and GAP_RECORD_STORE. -/
def Obligations.CodecPassesBlocks : Prop :=
  ∀ (s : State) (c : Nat), c < 64 →
    let numbered (t : State) : Prop := t.cnv.blocks.length = s.cnv.blocks.length + 1 ∧ (ctx t c).newest = some (get s (STM.CSEQ_SEQ c)) ∧
      get t (STM.CSEQ_SEQ c) = (get s (STM.CSEQ_SEQ c) + 1) % 2 ^ 32
    (∀ bad : List Nat, domainOn s 12 = false ∨ nextTaken s ≠ some c → exec (.itemTake c bad) s = .next s) ∧
    (∀ (it : QItem) (r : List QItem) (bad : List Nat), (queue s c).items = it :: r → domainOn s 12 = true → nextTaken s = some c →
      Answers (.itemTake c bad) s fun t =>
        (queue t c).items = r ∧ t.notices = s.notices.erase c ∧
        (∃ f : Flight, t.flights = s.flights ++ [f] ∧ f.item.ctx = it.ctx ∧ (bad = [] → f.item = it) ∧
          f.eng = if wantsEngine s it (bad.any fun k => decide (k < it.ws.length)) = true then pickEngine s else none) ∧
        (∀ q, q ≠ c → queue t q = queue s q) ∧ sameOff s t [pQUE, pSTM, pCDC, pCNV, pMGT] ∧ sameMem s t) ∧
    (∀ (f : Flight) (m : Bool), s.flights.find? (fun f => f.item.ctx = c) = some f →
      (Answers (.blockRelease c m) s fun t => t.flights.length + 1 = s.flights.length ∧
        (classOf s c = 1 → ∀ d < 64, d ≠ c → get t (STM.CSEQ_SEQ d) = get s (STM.CSEQ_SEQ d))) ∧
      (isMctx s c = false → classOf s c = 1 → (ctx s c).wait = [] → (ctx s c).decl = none → (ctx s c).keyDue = none → (ctx s c).mkDue = none →
        ckIsDue s c = false → (ctx s c).sinceMk < 4096 →
        let n := (releaseWords s (releaseOf s f false)).length + 4
        (fits s c n (hdrTime f.item.ws) = true → Answers (.blockRelease c false) s numbered) ∧
        (fits s c n (hdrTime f.item.ws) = false → Answers (.blockRelease c false) s fun t =>
          get t CNV.NDECL_N = (get s CNV.NDECL_N + 1) % 2 ^ 32 ∧ (ctx t c).decl.isSome = true ∧ t.cnv.blocks = s.cnv.blocks ∧ sameMem s t))) ∧
    (cstate s c ≠ stOFF →
      (cnvUp s = true → ckLen false ≤ freeWords s (classOf s c) → Answers (.deviceCheckpoint c) s fun t =>
        numbered t ∧ (ctx t c).sinceCk = 0 ∧ sameOff s t [pSTM, pQUE, pCDC, pCNV, pMGT]) ∧
      (cnvUp s = false ∨ freeWords s (classOf s c) < ckLen false →
        exec (.deviceCheckpoint c) s = .next (setCtx s c { ctx s c with ckLate := true }))) ∧
    (∀ g : GapRec, cstate s c = stRUN → (ctx s c).wait = [g] →
      (gapReady s c none g = false → exec (.gapRecordStore c) s = .next s) ∧
      (gapReady s c none g = true → ckIsDue s c = false → cnvUp s = true →
      gapLen ≤ freeWords s (classOf s c) → Answers (.gapRecordStore c) s fun t =>
        numbered t ∧ (ctx t c).wait = [] ∧ (ctx t c).gapNext = true ∧ get t (STM.CGAP_N c) = min (get s (STM.CGAP_N c) + 1) 65535 ∧
        evt t pSTM 11 = true ∧ sameOff s t [pSTM, pQUE, pCDC, pCNV, pMGT]))

/-- R226, R228, R231–R233, R238: CDCMD, ECTL, ETEST_DONE, ENGINE_TEST, XCMD and CONTEXT_SRAM_ERROR. -/
def Obligations.EnginesAndContextState : Prop :=
  (∀ (s e : State) (src : Src),
    (∀ g < 4, ∀ op < 2, Taken s src pCDC 0x40 [wd (g * 256 + op + 1)] false e →
      Answers (if op = 0 then .cdcmdEclear src g else .cdcmdEtest src g) s fun t =>
        engine t g = { st := stTEST, fromClear := decide (op = 0) } ∧ (∀ h, h ≠ g → engine t h = engine s h) ∧ sameRegs s t svcs ∧ sameMem s t) ∧
    (∀ b < 16, Taken s src pCDC 0x44 [wd b] false e → Answers (.ectlByp src b) s fun t =>
      get t CDC.ECTL_BYP = b ∧
      (∀ g < 4, (engine t g).st =
        if bit b g = true ∧ (engine s g).st = stIDLE then stHOLD
        else if bit b g = false ∧ (engine s g).st = stHOLD then stIDLE else (engine s g).st) ∧
      sameRegs s t (CDC.ECTL_BYP :: evts pCDC ++ svcs) ∧ sameMem s t) ∧
    (let c := get s CTX.XSEL_CTX
     (Taken s src pCTX 0x44 [1#32] false e → (imageOf s c).length ≤ 4096 → Answers (.xcmdSnap src) s fun t =>
       (∀ k < (imageOf s c).length, get t (CTX.XWIN_D (k % 256) (k / 256)) = ((imageOf s c).getD k 0#32).toNat) ∧
       get t CTX.XSTAT_NW = (imageOf s c).length ∧ get t CTX.XSTAT_SCTX = c % 64 ∧ ctx t c = ctx s c ∧ sameOff s t [pCTX, pSVC, pTKE, pTKW] ∧ sameMem s t) ∧
     (Taken s src pCTX 0x44 [2#32] false e → Answers (.xcmdRestore src) s fun t =>
       (ctx t c).restart = true ∧ (ctx t c).comp = wbits (stage s 2) 15 0 ∧ (ctx t c).nch = wbits (stage s 0) 9 0 ∧
       (∀ l, stagedHist s (wbits (stage s 0) 9 0) = some l → ∀ j < l.length, some (histOf (ctx t c) j) = l[j]?) ∧ sameRegs s t svcs ∧ sameMem s t) ∧
     (Taken s src pCTX 0x44 [3#32] false e → Answers (.xcmdClear src) s fun t =>
       (ctx t c).restart = true ∧ (ctx t c).comp = 0 ∧ (ctx t c).nch = (ctx s c).nch ∧ sameRegs s t svcs ∧ sameMem s t))) ∧
  (∀ (s : State) (g : Nat), g < 4 →
    let failed (t : State) : Prop := (engine t g).st = stFAULT ∧ evt t pCDC 9 = true ∧ (∀ f ∈ t.flights, f.eng ≠ some g) ∧
      t.flights.length = s.flights.length ∧
      (∀ j < 16, get s (CDC.DSTAT_STATE j) = 2 → (job s j).eng = some g → get t (CDC.DSTAT_STATE j) = 5 ∧ get t (CDC.DSTAT_ERR j) = 10) ∧
      sameOff s t [pCDC, pMGT] ∧ sameMem s t
    ((engine s g).st = stTEST →
      Answers (.etestDone g false) s failed ∧
      ((engine s g).fromClear = true → Answers (.etestDone g true) s fun t =>
        (if bypassed s g then (engine t g).st = stHOLD else (engine t g).st = stIDLE ∧ evt t pCDC 13 = true) ∧
        sameRegs s t (evts pCDC) ∧ sameMem s t) ∧
      ((engine s g).fromClear = false → exec (.etestDone g true) s = .next (setEngine s g { st := stHOLD }))) ∧
    ((engine s g).st = stIDLE ∨ (engine s g).st = stRUN →
      Answers (.engineTest g false) s failed ∧ exec (.engineTest g true) s = .next s)) ∧
  (∀ s : State, pstate s pCDC = stIDLE ∨ pstate s pCDC = stRUN → Answers .contextSramError s fun t =>
    pstate t pCDC = stFAULT ∧ evt t pCDC 2 = true ∧ (∀ f ∈ t.flights, f.eng = none) ∧
    (∀ j < 16, 1 ≤ get s (CDC.DSTAT_STATE j) → get s (CDC.DSTAT_STATE j) ≤ 3 →
      get t (CDC.DSTAT_STATE j) = 5 ∧ get t (CDC.DSTAT_ERR j) = 9) ∧
    sameOff s t [pCDC, pMGT] ∧ sameMem s t)

/-- R227, R234–R237, R251: DCMD SUBMIT, RESUME, ABORT and RELEASE, JOB_START, DDONE, DSTOP and DERR. -/
def Obligations.DescriptorJobs : Prop :=
  (∀ (s e : State) (src : Src),
    (∀ (d : List Word) (j : Nat), d.length = 8 → Taken s src pCDC 0x80 (d ++ [1#32]) false e →
      (List.range 16).find? (fun j => get s (CDC.DSTAT_STATE j) = 0) = some j → Answers (.dcmdSubmit src d) s fun t =>
        get t (CDC.DSTAT_STATE j) = (if dSlots d = 0 ∨ dNch d = 0 then 4 else 1) ∧ get t (CDC.DSTAT_ERR j) = 0 ∧
        get t (CDC.DSTAT_OP j) = dOp d ∧ get t (CDC.DSTAT_UTAG j) = wbits (dscW d 0) 15 8 ∧ (job t j).dsc = d ∧
        get t CDC.DLAST_VAL = 1 ∧ get t CDC.DLAST_JOB = j ∧
        (∀ k < 16, k ≠ j → get t (CDC.DSTAT_STATE k) = get s (CDC.DSTAT_STATE k) ∧ job t k = job s k) ∧
        sameOff s t [pSTM, pQUE, pCDC, pCNV, pMGT, pSVC, pTKE, pTKW] ∧ sameMem s t) ∧
    (∀ j < 16,
      (Taken s src pCDC 0xA0 [wd (j * 65536 + 2)] false e → Answers (.dcmdResume src j) s fun t =>
        get t (CDC.DSTAT_STATE j) = 1 ∧ get t (CDC.DPRD0_N j) = 0 ∧ get t (CDC.DPRD1_N j) = 0 ∧
        get t (CDC.DBITS_DB j) = 0 ∧ get t (CDC.DBITS_CB j) = 0 ∧ (∀ k, k ≠ j → job t k = job s k) ∧
        sameRegs s t ([CDC.DSTAT_STATE j, CDC.DPRD0_N j, CDC.DPRD1_N j, CDC.DBITS_DB j, CDC.DBITS_CB j] ++ svcs) ∧ sameMem s t) ∧
      (Taken s src pCDC 0xA0 [wd (j * 65536 + 3)] false e → Answers (.dcmdAbort src j) s fun t =>
        get t (CDC.DSTAT_STATE j) = 5 ∧ get t (CDC.DSTAT_ERR j) = 11 ∧ (job t j).eng = none ∧ (∀ k, k ≠ j → job t k = job s k) ∧
        sameRegs s t ([CDC.DSTAT_STATE j, CDC.DSTAT_ERR j] ++ svcs) ∧ sameMem s t) ∧
      (Taken s src pCDC 0xA0 [wd (j * 65536 + 4)] false e → Answers (.dcmdRelease src j) s fun t =>
        get t (CDC.DSTAT_STATE j) = 0 ∧ get t (CDC.DSTAT_ERR j) = 0 ∧ job t j = {} ∧
        (∀ k < 16, k ≠ j → get t (CDC.DSTAT_STATE k) = get s (CDC.DSTAT_STATE k) ∧ job t k = job s k) ∧
        sameOff s t [pSTM, pQUE, pCDC, pCNV, pMGT, pSVC, pTKE, pTKW] ∧ sameMem s t))) ∧
  (∀ (s : State) (j g : Nat), j < 16 → pickEngine s = some g → get s (CDC.DSTAT_STATE j) = 1 → pstate s pCDC = stRUN →
    get s PWR.SLVL_LEVEL < 2 → (∀ q < 64, (queue s q).items = []) → Answers (.jobStart j) s fun t =>
      get t (CDC.DSTAT_STATE j) = 2 ∧ (job t j).eng = some g ∧ (engine t g).st = stRUN ∧ g < 4 ∧
      engFree s g = true ∧ (∀ h < 4, engFree s h = true → engLoad s g < engLoad s h ∨ (engLoad s g = engLoad s h ∧ g ≤ h)) ∧
      sameRegs s t [CDC.DSTAT_STATE j] ∧ sameMem s t) ∧
  (∀ (s : State) (j : Nat), j < 16 → get s (CDC.DSTAT_STATE j) = 2 →
    let r := jobEnd s j
    let d := (job s j).dsc
    let ended (v ev : Nat) (also : List Nat) (t : State) : Prop := get t (CDC.DSTAT_STATE j) = v ∧ get t (CDC.DSTAT_ERR j) = r.err % 16 ∧
      evt t pCDC ev = true ∧ get t (CDC.DPRD0_N j) = r.dst.length % 2 ^ 32 ∧ get t (CDC.DCONS_N j) = r.cons % 2 ^ 32 ∧ (job t j).eng = none ∧
      (∀ a, ¬ (dDst d ≤ a ∧ a < dDst d + 4 * r.dst.length) → ¬ (dChn d ≤ a ∧ a < dChn d + 4 * r.chn.length) → memGet t a = memGet s a) ∧
      sameOff s t ([pCDC, pMGT] ++ also)
    (r.kind = 0 → Answers (.ddone j) s (ended 4 10 [])) ∧ (r.kind = 1 → Answers (.dstop j) s (ended 3 11 [])) ∧
    (r.kind = 2 → Answers (.derr j ⟨0, []⟩) s (ended 5 12 [pCNV])) ∧
    (∀ (n a : Nat) (l : List Nat), Answers (.derr j ⟨n, a :: l⟩) s fun t => get t (CDC.DSTAT_STATE j) = 5 ∧ get t (CDC.DSTAT_ERR j) = 9 ∧ evt t pCDC 12 = true ∧
      (job t j).eng = none ∧ evt t pCNV 11 = true ∧
      get t CNV.EUNC_N = min (get s CNV.EUNC_N + (l.length + 1)) (2 ^ CNV.EUNC_N.width - 1) ∧
      sameRegs s t ([CDC.DSTAT_STATE j, CDC.DSTAT_ERR j, CNV.ECORR_N, CNV.EADDR_ADDR, CNV.EUNC_N, hPEVT pCNV] ++ evts pCDC) ∧ sameMem s t))

/-- R243, R244, R251, R255, R310, R314–R317: ACK, RESEND, EGRESS_SEND, SCRUB and CANVAS_FAULT. That SCRUB also reports what the reads of the
ring, the work window and jobs have found is the model's choice (log entry 125). -/
def Obligations.CanvasAcknowledgesAndSends : Prop :=
  let found (s t : State) (m : MemRead) : Prop :=
    get t CNV.ECORR_N = (get s CNV.ECORR_N + m.corr) % 2 ^ CNV.ECORR_N.width ∧
    (∀ a, m.unc.getLast? = some a → get t CNV.EADDR_ADDR = a % 2 ^ CNV.EADDR_ADDR.width ∧
      get t CNV.EUNC_N = min (get s CNV.EUNC_N + m.unc.length) (2 ^ CNV.EUNC_N.width - 1) ∧ evt t pCNV 11 = true) ∧
    (m.unc = [] → get t CNV.EADDR_ADDR = get s CNV.EADDR_ADDR ∧ get t CNV.EUNC_N = get s CNV.EUNC_N)
  (∀ (s : State) (p pos unit c low : Nat), p < 2 → c < 64 → linkRuns s p = true →
    (addressed s pos unit = true →
      let a := fullSeq s c low
      (∀ n, (ctx s c).newest = some n → seqBack a n < 2 ^ 31 → (∀ b, (ctx s c).acked = some b → 2 ^ 31 ≤ seqBack a b) →
        Answers (.ack p pos unit c low) s fun t => (ctx t c).acked = some a ∧
          (∀ b ∈ t.cnv.blocks, b.ctx = c → seqBack b.seq a < 2 ^ 31 → b.acked = true) ∧
          (∀ b ∈ s.cnv.blocks, b.acked = false → ¬ (b.ctx = c ∧ seqBack b.seq a < 2 ^ 31) → b.pieces ≠ [] → b ∈ t.cnv.blocks) ∧
          sameOff s t [pSTM, pQUE, pCDC, pCNV, pMGT] ∧ sameMem s t) ∧
      (∀ n b, (ctx s c).newest = some n → seqBack a n < 2 ^ 31 → (ctx s c).acked = some b → seqBack a b < 2 ^ 31 →
        exec (.ack p pos unit c low) s = .next s) ∧
      ((∀ n, (ctx s c).newest = some n → 2 ^ 31 ≤ seqBack a n) → Answers (.ack p pos unit c low) s fun t =>
        get t CNV.ACKIGN_N = min (get s CNV.ACKIGN_N + 1) 65535 ∧ evt t pCNV 12 = true ∧
        sameRegs s t (CNV.ACKIGN_N :: evts pCNV) ∧ unlogged t = unlogged s) ∧
      ((s.cnv.blocks.any fun b => b.ctx = c && b.seq = a && !b.gone) = true → Answers (.resend p pos unit c low) s fun t =>
        t = { s with cnv := { s.cnv with resend := s.cnv.resend ++ [(c, a)] } }) ∧
      ((s.cnv.blocks.any fun b => b.ctx = c && b.seq = a && !b.gone) = false → Answers (.resend p pos unit c low) s fun t =>
        get t DOM.NRSI_N = min (get s DOM.NRSI_N + 1) (2 ^ DOM.NRSI_N.width - 1) ∧ sameRegs s t [DOM.NRSI_N] ∧ unlogged t = unlogged s)) ∧
    (addressed s pos unit = false →
      (Answers (.ack p pos unit c low) s fun t =>
        Told s t (1 - p) 3 (ackBody pos unit c low) ∧ sameRegs s t [TK.NREPL_N 0, TK.NREPL_N 1] ∧ offWire t = offWire s) ∧
      (Answers (.resend p pos unit c low) s fun t =>
        Told s t (1 - p) 4 (ackBody pos unit c low) ∧ sameRegs s t [TK.NREPL_N 0, TK.NREPL_N 1] ∧ offWire t = offWire s))) ∧
  (∀ (s : State) (l : Nat) (b : RBlk) (asked : Bool) (m : MemRead), egressPort s = some l → roleSends s = true → cnvUp s = true →
    (link s l).deficit ≤ 0 → nextBlock s = some (b, asked) → mayStart s l b.len = true → Answers (.egressSend m) s fun t =>
      Sent s t (.block l b.ctx b.seq (blkWords s b)) ∧ (∀ x ∈ t.cnv.blocks, x.ctx = b.ctx → x.seq = b.seq → x.pieces = b.pieces → x.sent = true) ∧
      t.cnv.blocks.map (·.pieces) = s.cnv.blocks.map (·.pieces) ∧ found s t m ∧
      sameRegs s t ([DOM.NRSN_N, DOM.NFWD_N, TK.NREPL_N 0, TK.NREPL_N 1, CNV.ECORR_N, CNV.EADDR_ADDR, CNV.EUNC_N] ++ evts pCNV) ∧
      sameMem s t) ∧
  (∀ (s : State) (corr : Nat) (unc : List Nat), domainOn s 13 = true → pstate s pCNV ≠ stOFF →
    Answers (.scrub corr unc) s fun t =>
      (if flag s CNV.SCRUB_EN = true then
        get t (hPOS pCNV) = (if get s (hLIM pCNV) = 65536 ∧ get s (hPOS pCNV) < 65536 then get s (hPOS pCNV) + 1 else 1) ∧
        get t (hLIM pCNV) = 65536
      else get t (hPOS pCNV) = get s (hPOS pCNV) ∧ get t (hLIM pCNV) = get s (hLIM pCNV) ∧ get t (hPCT pCNV) = get s (hPCT pCNV)) ∧
      found s t ⟨corr, unc⟩ ∧
      sameRegs s t ([hPOS pCNV, hLIM pCNV, hPCT pCNV, CNV.ECORR_N, CNV.EADDR_ADDR, CNV.EUNC_N] ++ evts pCNV) ∧ unlogged t = unlogged s) ∧
  (∀ s : State, pstate s pCNV = stIDLE ∨ pstate s pCNV = stRUN → Answers .canvasFault s fun t =>
    pstate t pCNV = stFAULT ∧ evt t pCNV 2 = true ∧ sameRegs s t (sts pCNV) ∧ unlogged t = unlogged s)

/-- R257–R262, R274, R403: TCMD SET, STEP and PSACK, writes of ASYM and of the increment, and SERVO. -/
def Obligations.TimeCommandsAndServo : Prop :=
  (∀ (s e : State) (src : Src),
    let frame (t : State) : Prop := sameOff s t [pTSU, pMGT, pSVC, pTKE, pTKW] ∧ sameMem s t
    (Taken s src pTSU 0x70 [1#32] false e → Answers (.tcmdSet src) s fun t =>
      t.time = ⟨get s TSU.TSETH_SEC * 2 ^ 32 + get s TSU.TSETL_SEC, get s TSU.TSETN_NS, get s TSU.TSETF_FRAC * 65536⟩ ∧
      evt t pTSU 14 = true ∧ t.tsu.setMade = true ∧ frame t) ∧
    (Taken s src pTSU 0x70 [2#32] false e → (now32 s : Int) + tadj32 s < 2 ^ 48 * 1000000000 * 2 ^ 32 → Answers (.tcmdStep src) s fun t =>
      (now32 t : Int) = now32 s + toSigned 32 (get s TSU.TADJ_NS) * 2 ^ 32 ∧ evt t pTSU 14 = true ∧ frame t) ∧
    (Taken s src pTSU 0x70 [3#32] false e → Answers (.tcmdPsack src) s fun t =>
      get t TSU.TSTAT_PSH = 0 ∧ get t TSU.TSTAT_AUNK = 0 ∧ t.time = s.time ∧ frame t) ∧
    (∀ a : Word, Taken s src pTSU 0x98 [a] false e → Answers (.asymWrite src a) s fun t =>
      get t TSU.ASYM_A = a.toNat ∧ get t TSU.TSTAT_PSH = 0 ∧ get t TSU.TSTAT_AUNK = 0 ∧ t.time = s.time ∧ frame t) ∧
    (∀ inc : Nat, inc < 2 ^ 36 → flag s TSU.TSTAT_SLEW = false ∨ increment36 s ≠ inc →
      Taken s src pTSU 0x48 [wd inc, wd (inc / 2 ^ 32)] false e → Answers (.increment src inc) s fun t =>
        increment36 t = inc ∧ flag t TSU.TSTAT_SLEW = false ∧ t.time = s.time ∧ frame t)) ∧
  (∀ (s : State) (inc : Nat) (ofs fofs : Int), flag s TSU.TCTL_SERVO = true → mgpRuns s = true → pstate s pTSU = stRUN →
    let f := max incMin (min incMax inc)
    let may : Bool := (!s.sch.armedOnce && !s.tsu.stepDone && ofs != 0) ||
      (!(get s DOM.DROLE_AUTH = 3 && hearsHead s && s.dom.keeperPos.isNone && !isKeeper s) && flag s TSU.TCTL_ASTEP &&
        (pstate s pSCH = stIDLE || pstate s pSCH = stOFF) && decide (get s TSU.STPTH_US * 1000 < ofs.natAbs))
    Answers (.servo inc ofs fofs) s fun t =>
      t.tsu.freq = f ∧ t.tsu.stepDone = true ∧ get t TSU.FOFS_F = ofSigned 32 fofs ∧
      (may = true → increment36 t = f ∧ get t TSU.TSTAT_SLEW = 0 ∧ evt t pTSU 14 = true ∧
        (0 ≤ (now32 s : Int) - ofs * 2 ^ 32 → (now32 s : Int) - ofs * 2 ^ 32 < 2 ^ 48 * 1000000000 * 2 ^ 32 →
          (now32 t : Int) = now32 s - ofs * 2 ^ 32)) ∧
      (may = false → t.time = s.time ∧ increment36 t = (if ofs = 0 then f else slewInc s f ofs) ∧
        get t TSU.TSTAT_SLEW = (if ofs = 0 then 0 else 1)) ∧
      sameRegs s t ([TSU.INCHI_INT, TSU.INCLO_FRAC, TSU.FOFS_F, TSU.TSTAT_SLEW] ++ evts pTSU) ∧ sameMem s t)

/-- R263–R265, R274, R275, R323: SOURCE_QUALIFY, SOURCE_LOST, REFIN_COUNT and XDIFF. -/
def Obligations.TimeSources : Prop :=
  (∀ (s : State) (c : Nat) (f : Fld), qBit c = some f →
    let selected (t : State) : Prop := pstate s pTSU ≠ stOFF → pstate s pTSU ≠ stHOLD →
      get t TSU.TSTAT_SRC = bestSource t ∧ (get t TSU.TSTAT_FRN = if bestSource t = 0 then 1 else 0) ∧
      (pstate t pTSU = stIDLE ↔ bestSource t = 0)
    ((c = 1 → linkRuns s (timeSide s) = true ∧ 64 ≤ (link s (timeSide s)).since ∧
        ∃ o, tget s.dom.oup (timeSide s) none = some o ∧ s.cyc ≤ o.2 + 73728) →
      (c = 2 → mgpRuns s = true ∧ flag s ETH.ELNK_UP = true ∧ (get s ETH.PTPCFG_ROLE = 1 ∨ get s ETH.PTPCFG_ROLE = 3) ∧ masterId s ≠ 0) →
      (c = 3 → flag s AXS.PPSCFG_PEN = true ∧ flag s TSU.REFCFG_REN = true) → Answers (.sourceQualify c) s fun t =>
      get t f = 1 ∧ selected t ∧ sameOff s t [pTSU, pDOM, pMGT] ∧ sameMem s t) ∧
    (flag s f = true → Answers (.sourceLost c) s fun t =>
      get t f = 0 ∧ selected t ∧ (pstate s pTSU = stHOLD → c = 2 → flag s TSU.TSTAT_PSH = true → bestSource t = 0 → evt t pTSU 11 = true) ∧
      sameOff s t [pTSU, pMGT] ∧ sameMem s t)) ∧
  (∀ (s : State) (n : Nat), flag s TSU.REFCFG_REN = true → Answers (.refinCount n) s fun t =>
    let nom := refNominal (get s TSU.REFCFG_FREQ)
    get t TSU.REFCNT_N = n % 2 ^ 32 ∧ (10000 * ((n : Int) - nom).natAbs ≤ nom → t = put s TSU.REFCNT_N n) ∧
    (nom < 10000 * ((n : Int) - nom).natAbs → get t TSU.TSTAT_QPPS = 0) ∧ sameOff s t [pTSU, pMGT] ∧ sameMem s t) ∧
  (∀ s : State, pstate s pTSU ≠ stHOLD → flag s TSU.TSTAT_PSH = false → get s TSU.TSTAT_SRC ≠ 2 → flag s TSU.TSTAT_QPTP = true →
    flag s TSU.TSTAT_QTK = true → xOut s = true → s.tsu.xArmed = true → Answers .xdiff s fun t =>
      evt t pTSU 13 = true ∧ t.tsu.xArmed = false ∧ sameRegs s t (evts pTSU) ∧
      unlogged t = unlogged { s with tsu := { s.tsu with xArmed := false, xIn := none } })

/-- R263, R267–R275, R278: PTP_RX, PTP_TX, DELAY_EXCHANGE, HOLDOFF, ANNOUNCE, ECFG_MODE, ETH_LINK_UP and ETH_LINK_DOWN. -/
def Obligations.PtpAndEthernet : Prop :=
  (∀ (s : State) (k latch : Nat) (msg : PtpMsg) (corr : Int), flag s ETH.ELNK_UP = true →
    (Answers (.ptpRx k latch) s fun t =>
      t.out = s.out ++ [.ptpRx k ((latch : Int) - ps16 (get s TSU.RXCORR_PS)).toNat] ∧
      get t ETH.NSYNC_N = (if k = 0 then (get s ETH.NSYNC_N + 1) % 2 ^ 32 else get s ETH.NSYNC_N) ∧ sameRegs s t [ETH.NSYNC_N] ∧ sameMem s t) ∧
    (let m := ((latch : Int) + ps16 (get s TSU.TXCORR_PS)).toNat
     let cls := if get s TSU.TSTAT_SRC = 0 then 187 else get s ETH.PTPID_CLASS
     let fcs (n : PtpMsg) (c : Int) : Nat := ethFcs (ptpFrame (get s ETH.PTPCFG_TRANS) n c)
     (mgpRuns s = false → exec (.ptpTx msg latch corr) s = .next s) ∧
     (mgpRuns s = true → flag s ETH.PTPCFG_ONESTEP = true → msg.kind ≤ 1 → Answers (.ptpTx msg latch corr) s fun t =>
       (∃ (n : PtpMsg) (c : Int), t.out = s.out ++ [.ptpTx n c cls (fcs n c)] ∧ c = corr + (m % 65536 : Nat) ∧ n.kind = msg.kind ∧
         n.head = msg.head.modify 6 (fun b => b &&& 253) ∧
         n.sec = m / (1000000000 * 65536) % 2 ^ 48 ∧ n.ns = m % (1000000000 * 65536) / 65536 ∧
         (get s ETH.PTPCFG_TRANS = 0 → (n.sum, n.pad) = (msg.sum, msg.pad)) ∧
         (get s ETH.PTPCFG_TRANS = 1 → n.pad = msg.pad ∧ (msg.sum = 0 → n.sum = 0) ∧ (0 < msg.sum → msg.sum < 65536 →
           ((stampWords n c).sum + n.sum) % 65535 = ((stampWords msg corr).sum + msg.sum) % 65535)) ∧
         (get s ETH.PTPCFG_TRANS = 2 → n.sum = msg.sum ∧
           ((stampWords n c).sum + n.pad) % 65535 = ((stampWords msg corr).sum + msg.pad) % 65535)) ∧
       get t ETH.NINS_N = (get s ETH.NINS_N + 1) % 2 ^ 32 ∧ t.tsu = s.tsu ∧ sameRegs s t [ETH.NINS_N] ∧ sameMem s t) ∧
     (mgpRuns s = true → flag s ETH.PTPCFG_ONESTEP = false ∨ 1 < msg.kind → Answers (.ptpTx msg latch corr) s fun t =>
       (if msg.kind = 0 ∨ msg.kind = 3 then
         let n := { msg with head := msg.head.modify 6 fun b => b ||| 2 }
         t.out = s.out ++ [.ptpTx n corr cls (fcs n corr), .followUp msg.kind m]
       else t.out = s.out ++ [.ptpTx msg corr cls (fcs msg corr)]) ∧
       (if s.tsu.fifo.length < 16 then t.tsu.fifo = s.tsu.fifo ++ [(msg.kind, m)] ∧ sameRegs s t []
         else t.tsu.fifo = (s.tsu.fifo ++ [(msg.kind, m)]).drop 1 ∧ get t ETH.TSOVF_N = min (get s ETH.TSOVF_N + 1) 65535 ∧ evt t pETH 11 = true ∧
           sameRegs s t (ETH.TSOVF_N :: evts pETH)) ∧ sameMem s t))) ∧
  (∀ (s : State) (mpd : Nat) (ofs : Int), mpd < 2 ^ 32 → ptpSlave s = true →
    let step : Bool := !s.tsu.mpds.isEmpty && decide (get s TSU.PDSTEP_NS * 256 < ((mpd : Int) - get s TSU.MPDF_D).natAbs)
    Answers (.delayExchange mpd ofs) s fun t =>
      get t ETH.NDLY_N = (get s ETH.NDLY_N + 1) % 2 ^ 32 ∧ get t TSU.MPD_D = mpd ∧
      get t TSU.PTOFS_OFS = ofSigned 32 (max (-0x80000000) (min 0x7FFFFFFF (ofs - toSigned 32 (get s TSU.ASYM_A)))) ∧
      (step = true → get t TSU.TSTAT_PSH = 1 ∧ evt t pTSU 8 = true ∧ get t TSU.MPDF_D = mpd ∧
        (pstate s pTSU = stRUN → get s TSU.TSTAT_SRC = 2 → pstate t pTSU = stHOLD)) ∧
      (step = false → get t TSU.TSTAT_PSH = get s TSU.TSTAT_PSH ∧ pstate t pTSU = pstate s pTSU) ∧ t.time = s.time ∧
      sameOff s t [pTSU, pETH, pMGT] ∧ sameMem s t) ∧
  (∀ (s : State) (mpd : Nat) (ofs : Int), mpd < 2 ^ 32 → exchanges s = true → ptpSlave s = false → Answers (.delayExchange mpd ofs) s fun t =>
      get t ETH.NDLY_N = (get s ETH.NDLY_N + 1) % 2 ^ 32 ∧ get t TSU.MPD_D = mpd ∧ get t TSU.PTOFS_OFS = get s TSU.PTOFS_OFS ∧
      t.time = s.time ∧ sameOff s t [pTSU, pETH, pMGT] ∧ sameMem s t) ∧
  (∀ s : State, flag s TSU.TSTAT_PSH = true → flag s TSU.TSTAT_AUNK = false → Answers .holdoff s fun t =>
    (usable s 1 = true → get t TSU.TSTAT_PSH = 0 ∧ evt t pTSU 10 = true ∧ get t TSU.ASYM_A =
      ofSigned 32 (sat32 (toSigned 32 (get s TSU.ASYM_A) + meanOf (s.tsu.exch.map (·.1)) - meanOf (s.tsu.exch.map (·.2))))) ∧
    (usable s 1 = false → get t TSU.TSTAT_AUNK = 1 ∧ evt t pTSU 9 = true ∧ get t TSU.TSTAT_PSH = get s TSU.TSTAT_PSH ∧
      (pstate s pTSU = stHOLD → get t TSU.TSTAT_SRC = 0 ∧ get t TSU.TSTAT_FRN = 1)) ∧
    t.time = s.time ∧ sameOff s t [pTSU, pMGT] ∧ sameMem s t) ∧
  (∀ (s : State) (id : Nat), id < 2 ^ 64 → id ≠ get s ETH.GMIDH_ID * 2 ^ 32 + get s ETH.GMIDL_ID → ptpSlave s = true → Answers (.announce id) s fun t =>
      get t ETH.GMIDH_ID * 2 ^ 32 + get t ETH.GMIDL_ID = id ∧ evt t pETH 10 = true ∧ flag t TSU.TSTAT_QPTP = false ∧
      sameOff s t [pTSU, pETH, pMGT] ∧ sameMem s t) ∧
  (∀ (s e : State) (src : Src), ∀ m < 4, Taken s src pETH 0x40 [wd m] false e → Answers (.ecfgMode src m) s fun t =>
    get t ETH.ECFG_MODE = m ∧
    (get s ETH.ECFG_MODE ≠ m → m = 1 → get t TSU.TXCORR_PS = 2890 ∧ get t TSU.RXCORR_PS = 7120) ∧
    (get s ETH.ECFG_MODE ≠ m → m = 2 → get t TSU.TXCORR_PS = 5600 ∧ get t TSU.RXCORR_PS = 10400) ∧
    sameRegs s t ([ETH.ECFG_MODE, TSU.TXCORR_PS, TSU.RXCORR_PS] ++ svcs) ∧ Untouched s t src) ∧
  (∀ s : State,
    (pstate s pETH = stIDLE → get s ETH.ECFG_MODE ≠ 0 → Answers .ethLinkUp s fun t =>
      get t ETH.ELNK_UP = 1 ∧ get t ETH.ELNK_BLK = 1 ∧ pstate t pETH = stRUN ∧ evt t pETH 8 = true ∧
      sameRegs s t ([ETH.ELNK_UP, ETH.ELNK_BLK] ++ sts pETH) ∧ unlogged t = unlogged s) ∧
    (flag s ETH.ELNK_UP = true → Answers .ethLinkDown s fun t =>
      get t ETH.ELNK_UP = 0 ∧ pstate t pETH = stIDLE ∧ evt t pETH 9 = true ∧
      sameRegs s t ([ETH.ELNK_UP, ETH.ELNK_BLK] ++ sts pETH) ∧ unlogged t = unlogged s))

/-- R292, R294, R300: LCMD TRAIN, STOP, TEST and LRETRY. -/
def Obligations.LinkPortCommands : Prop :=
  ∀ (s e : State) (src : Src), ∀ p < 2,
    let frame (t : State) : Prop := sameOff s t (linkPages p ++ [pSVC]) ∧ sameMem s t
    (Taken s src (pTKE + p) 0x40 [1#32] false e → Answers (.lcmdTrain src p) s fun t =>
      pstate t (pTKE + p) = stARMED ∧ (linkRuns s p = true → evt t (pTKE + p) 9 = true) ∧ (∀ k < 4, ∃ v, Sent s t (.train p k v)) ∧
      (link t p).txact = 0 ∧ frame t) ∧
    (Taken s src (pTKE + p) 0x40 [2#32] false e → Answers (.lcmdStop src p) s fun t =>
      pstate t (pTKE + p) = stIDLE ∧ (linkRuns s p = true → evt t (pTKE + p) 9 = true) ∧ (link t p).txact = 0 ∧ (link t p).rxact = 0 ∧ frame t) ∧
    (Taken s src (pTKE + p) 0x40 [3#32] false e → Answers (.lcmdTest src p) s fun t =>
      pstate t (pTKE + p) = stTEST ∧ (∀ k < 4, ∃ v, Sent s t (.train p k v)) ∧ sameRegs s t (sts (pTKE + p) ++ svcs) ∧ sameMem s t) ∧
    (Taken s src (pTKE + p) 0x40 [4#32] false e → Answers (.lcmdLretry src p) s fun t =>
      (link t p).retr = ((link s p).retr ||| (link s p).park) ∧ (link t p).park = 0 ∧ (link t p).txact = (link s p).txact ∧
      sameRegs s t svcs ∧ sameMem s t)

/-- R283–R285, R290, R294, R300, R317: TRAINING_FRAME, FCOK_TIMEOUT, RRDY, LINKUP, TRNFAIL and BRINGUP_RETRY. -/
def Obligations.BringUp : Prop :=
  (∀ (s : State) (lane v : Nat) (inv : Bool) (sym : List Int), ∀ l < 3, linkSt s l = stARMED → lane < 4 → readFrame sym = some (inv, v) →
    let k := cbits v 26 24
    let x := laneAt (link s l) k
    (ctlGood v = true → bit (allLanes l) k = true → Answers (.trainingFrame l lane sym) s fun t =>
      let y := laneAt (link t l) k
      bit (link t l).inv lane = inv ∧ laneAtPos (link t l) lane = k ∧
      (link t l).fcokFar = bit v 39 ∧ (link t l).rrdyFar = ((link s l).rrdyFar || bit v 38) ∧ bit (link t l).pctx k = bit v 40 ∧
      (bit v 41 = true → x.stat = 0 → (y.cm1, y.c0, y.cp1, y.stat) = (0, 64, 0, 21)) ∧
      (bit v 41 = true → x.stat ≠ 0 → (y.cm1, y.c0, y.cp1, y.stat) = (x.cm1, x.c0, x.cp1, x.stat)) ∧
      (bit v 30 = true → (link t l).rxCd = some (cbits v 29 27) ∧ bit (link t l).pcrx k = bit v 23) ∧
      (cbits v 47 41 = 0 → x.stat < 64 → (y.cm1, y.c0, y.cp1, y.stat) = (x.cm1, x.c0, x.cp1, 0)) ∧
      (tapsOk x.cm1 x.c0 x.cp1 = true → tapsOk y.cm1 y.c0 y.cp1 = true) ∧
      (∃ w, Sent s t (.train l k w)) ∧ sameRegs s t [] ∧ offWire t = offWire s) ∧
    (ctlGood v = false → exec (.trainingFrame l lane sym) s = .next s)) ∧
  (∀ (s : State) (lane : Nat) (sym : List Int), ∀ l < 3, readFrame sym = none → exec (.trainingFrame l lane sym) s = .next s) ∧
  (∀ s : State, ∀ l < 3, linkSt s l = stARMED →
    ((link s l).fbrx = false → Answers (.clkfallback l) s fun t =>
      (link t l).fbrx = true ∧ (l < 2 → evt t (pTKE + l) 12 = true) ∧ t.out = s.out ∧ sameRegs s t (linkEvts l) ∧ offWire t = offWire s) ∧
    ((link s l).fcokFar = false → Answers (.fcokTimeout l) s fun t =>
      (l < 2 → evt t (pTKE + l) 12 = true) ∧ sameRegs s t (linkEvts l) ∧ unlogged t = unlogged (setLink s l { link s l with fbtx := true })) ∧
    (lkpRuns s = false → exec (.rrdy l) s = .next s) ∧
    (lkpRuns s = true → Answers (.rrdy l) s fun t =>
      (link t l).rrdyOwn = true ∧ ((link s l).fbrx = true → (link t l).pcrx = 0) ∧
      (l < 2 → (link s l).fbrx = false → get s (TK.LCFG_PCM l) = 1 → (link t l).pcrx = 0) ∧
      (l < 2 → (link s l).fbrx = false → get s (TK.LCFG_PCM l) = 2 → (link t l).pcrx = 15) ∧
      (∀ k < 4, bit (allLanes l) k = true → ∃ v, Sent s t (.train l k v)) ∧ sameRegs s t [] ∧ offWire t = offWire s) ∧
    (∀ (lanes : LaneMasks) (us : Nat), let r := lanes.rx &&& allLanes l; let m := lanes.tx &&& allLanes l
      (link s l).rrdyOwn = true → (link s l).rrdyFar = true → r ≠ 0 → m ≠ 0 → lkpRuns s = true → Answers (.linkup l lanes us) s fun t =>
        linkRuns t l = true ∧ (link t l).rxact = r ∧ (link t l).txact = m ∧ (link t l).retr = (allLanes l &&& (15 - r)) ∧
        (∀ k < 4, bit (allLanes l) k = true → ∀ v < 8,
          Sent s t (.train l k (trainLevels (ownField (link s l) (link s l).pam (some v) k) k))) ∧
        Sent s t (.transport l 1 (ownMax l * 2 ^ 32 + 2 ^ 28)) ∧
        (l < 2 → evt t (pTKE + l) 8 = true ∧ get t (TK.BRT_US l) = us % 65536 ∧ ∃ b, Sent s t (.transport l 5 b)) ∧
        sameOff s t (linkPages l) ∧ sameMem s t) ∧
    (Answers (.trnfail l) s fun t =>
      (l < 2 → evt t (pTKE + l) 15 = true ∧ get t (TK.TRNF_N l) = min (get s (TK.TRNF_N l) + 1) 65535) ∧
      sameRegs s t (if l < 2 then TK.TRNF_N l :: evts (pTKE + l) else []) ∧ unlogged t = unlogged (setLink s l { link s l with failed := true })) ∧
    ((link s l).failed = true → Answers (.bringupRetry l) s fun t =>
      linkSt t l = stARMED ∧ (link t l).failed = false ∧ (∀ k < 4, bit (allLanes l) k = true → ∃ v, Sent s t (.train l k v)) ∧
      sameRegs s t [] ∧ offWire t = offWire s))

/-- R264, R290, R292, R300, R309, R349, R407: CAPS, LNKTO and LANE_PLL_FAIL. -/
def Obligations.LinkDown : Prop :=
  (∀ (s : State) (maxf ver : Nat), ∀ l < 3, linkRuns s l = true →
    ((if l = 2 then 4095 ≤ maxf else 2057 ≤ maxf) → Answers (.caps l maxf ver) s fun t =>
      linkRuns t l = true ∧ negMax t l = min (ownMax l) maxf ∧ sameRegs s t (if l < 2 then [TK.NREPL_N l] else []) ∧ offWire t = offWire s) ∧
    (l = 2 → maxf < 4095 → Answers (.caps l maxf ver) s fun t =>
      linkRuns t l = true ∧ negMax t l = min (ownMax l) maxf ∧ t.twl.paired = false ∧ t.twl.pairFail = true ∧ twinSilent t = true ∧
      (s.twl.pairFail = false → evt t pTWL 16 = true) ∧ (twinSilent s = false → evt t pTWL 9 = true) ∧
      sameOff s t [pTWL, pMGT] ∧ sameMem s t) ∧
    (l < 2 → maxf < 2057 → Answers (.caps l maxf ver) s fun t =>
      pstate t (pTKE + l) = stARMED ∧ negMax t l = 0 ∧ (link t l).failed = true ∧ (link t l).txact = 0 ∧
      get t (TK.TRNF_N l) = min (get s (TK.TRNF_N l) + 1) 65535 ∧ evt t (pTKE + l) 15 = true ∧ evt t (pTKE + l) 9 = true ∧
      sameOff s t (linkPages l) ∧ sameMem s t) ∧
    (Answers (.lnkto l) s fun t =>
      linkSt t l = stARMED ∧ (l < 2 → evt t (pTKE + l) 9 = true) ∧ (link t l).txact = 0 ∧ negMax t l = 0 ∧
      (∀ k < 4, bit (allLanes l) k = true → ∃ v, Sent s t (.train l k v)) ∧ sameOff s t (linkPages l) ∧ sameMem s t)) ∧
  (∀ s : State, ∀ l < 2, linkSt s l ≠ stOFF → Answers (.lanePllFail l) s fun t =>
    pstate t (pTKE + l) = stFAULT ∧ (pstate s (pTKE + l) ≠ stFAULT → evt t (pTKE + l) 2 = true) ∧
    evt t (pTKE + l) 9 = true ∧ (link t l).txact = 0 ∧ (link t l).rxact = 0 ∧
    get t (if l = 0 then CLK.PLLST_TKE else CLK.PLLST_TKW) = 0 ∧ sameOff s t (pCLK :: linkPages l) ∧ sameMem s t) ∧
  (∀ s : State, linkSt s 2 ≠ stOFF → s.twl.strap ≠ 0 → Answers (.lanePllFail 2) s fun t =>
    linkSt t 2 = stFAULT ∧ (pstate s pTWL ≠ stOFF → pstate s pTWL ≠ stSEALED → pstate t pTWL = stFAULT) ∧ get t CLK.PLLST_TWN = 0 ∧
    sameRegs s t (CLK.PLLST_TWN :: sts pTWL) ∧ sameMem s t)

/-- R286–R292, R299, R314, R317, R362: CODEWORD, LACK, NAK, ZLP_FRAME, TIME, TRANSPORT_NOP and LINK_NOP. -/
def Obligations.CodewordsAndReplay : Prop :=
  (∀ (s : State) (lane : Nat) (lv : List Int), ∀ l < 3, linkRuns s l = true →
    let k := laneAtPos (link s l) lane
    ((receive (link s l) lane lv).1 = none → (laneAt (link s l) k).bad < 7 → Answers (.codeword l lane lv) s fun t =>
      (laneAt (link t l) k).bad = (laneAt (link s l) k).bad + 1 ∧ (laneAt (link t l) k).rq = [] ∧
      (l < 2 → get t (TK.NUNC_N l) = (get s (TK.NUNC_N l) + 1) % 2 ^ 32) ∧ sameRegs s t (if l < 2 then [TK.NUNC_N l] else []) ∧
      { link t l with lanes := [] } = { link s l with lanes := [] } ∧ t.out = s.out ∧ offWire t = offWire s) ∧
    ((receive (link s l) lane lv).1 = none → 7 ≤ (laneAt (link s l) k).bad → k < 4 → bit (link s l).rxact k = true →
      bit (link s l).retr k = false → laneSet (link s l).rxact k false ≠ 0 → Answers (.codeword l lane lv) s fun t =>
      bit (link t l).rxact k = false ∧ bit (link t l).retr k = true ∧ (∃ frm, Sent s t (.link l 3 (2 ^ k * 2 ^ 34 + 2 ^ 33 + frm % 4096 * 2 ^ 21))) ∧
      (l < 2 → evt t (pTKE + l) 10 = true) ∧ sameOff s t (linkPages l) ∧ sameMem s t) ∧
    (∀ c : RxCw, (receive (link s l) lane lv).1 = some c → (link s l).reorder = [] →
      let ws := scramble (scrInit c.csn) c.ws
      c.csn = (match (link s l).rxc with | none => 0 | some n => (n + 1) % 4096) →
      (∀ m ∈ (ws.foldl takeWord (link s l, [])).2, cbits m 47 44 = 0) → bit c.field 7 = true ∨ (laneAt (link s l) k).rq.length ≠ 5 →
      Answers (.codeword l lane lv) s fun t =>
        (link t l).rxc = some c.csn ∧ (link t l).rxWords = ws ∧ (laneAt (link t l) k).bad = 0 ∧ (link t l).reorder = [] ∧
        Sent s t (.link l 1 (c.csn * 2 ^ 26)) ∧ (∀ b, ¬ Sent s t (.link l 2 b)) ∧
        (l < 2 → 0 < c.corr → get t (TK.NCORR_N l) = (get s (TK.NCORR_N l) + 1) % 2 ^ 32) ∧ (l < 2 → offWire t = offWire s) ∧
        sameRegs s t (if l < 2 then TK.NREPL_N l :: (if 0 < c.corr then [TK.NCORR_N l] else []) else []) ∧ sameMem s t)) ∧
  (∀ (s : State) (n : Nat), ∀ l < 3, linkSt s l ≠ stOFF →
    (Answers (.lack l n) s fun t =>
      (∀ c ∈ (link s l).replay, 2048 ≤ (n + 4096 - c.csn) % 4096 → ∃ d ∈ (link t l).replay, d.csn = c.csn ∧ d.ws = c.ws) ∧
      ((link s l).held = [] → ∀ c ∈ (link t l).replay, 2048 ≤ (n + 4096 - c.csn) % 4096) ∧
      sameRegs s t (if l < 2 then [TK.NREPL_N l] else []) ∧ offWire t = offWire s) ∧
    ((link s l).txact % 16 ≠ 0 → (link s l).stalled = false → Answers (.nak l n) s fun t =>
      (∀ c ∈ (link s l).replay, c.csn = n → ∃ k lv, bit (link s l).txact k = true ∧ Sent s t (.codeword l k n lv)) ∧
      (link t l).replay.map (·.csn) = (link s l).replay.map (·.csn) ∧
      (l < 2 → get t (TK.NREPL_N l) % 2 ^ 32 = (get s (TK.NREPL_N l) + ((link s l).replay.filter fun c => c.csn = n).length) % 2 ^ 32) ∧
      sameRegs s t (if l < 2 then [TK.NREPL_N l] else []) ∧ offWire t = offWire s)) ∧
  (∀ (s : State) (fk flen : Nat) (ws : List Word), ∀ l < 3, linkRuns s l = true →
    (flen = 0 ∨ negMax s l < flen ∨ (if l = 2 then fk ≠ 2 else 2 ≤ fk) → Answers (.zlpFrame l fk flen ws) s fun t =>
      (l < 2 → get t (TK.OVLEN_N l) = min (get s (TK.OVLEN_N l) + 1) 65535 ∧ evt t (pTKE + l) 14 = true) ∧
      sameRegs s t (if l < 2 then TK.OVLEN_N l :: evts (pTKE + l) else []) ∧ unlogged t = unlogged s) ∧
    (l = 2 → flen ≠ 0 → flen ≤ negMax s l → exec (.zlpFrame l 2 flen ws) s = .next s) ∧
    (l < 2 → flen ≠ 0 → flen ≤ negMax s l →
      (linkRuns s (1 - l) = false → Answers (.zlpFrame l 0 flen ws) s fun t =>
        (link t (1 - l)).pass = (link s (1 - l)).pass ++ [(0, ws)] ∧ sameRegs s t [] ∧ offWire t = offWire s) ∧
      (mayStart s (1 - l) ws.length = true → (link s (1 - l)).pass = [] → ownWaits s (1 - l) = false → Answers (.zlpFrame l 0 flen ws) s fun t =>
        (link t (1 - l)).pass = [] ∧ (link t (1 - l)).used = ((link s (1 - l)).used + unitsOf ws.length) % 65536 ∧
        get t DOM.NFWD_N = (get s DOM.NFWD_N + 1) % 2 ^ 32 ∧ sameRegs s t [DOM.NFWD_N, TK.NREPL_N 0, TK.NREPL_N 1] ∧ offWire t = offWire s) ∧
      (wbits (ws.getD 0 0#32) 27 20 ≠ 255 → toMe s (ws.getD 0 0#32) = true → Answers (.zlpFrame l 1 flen ws) s fun t =>
        (link t l).grant = ((link s l).grant + unitsOf flen) % 65536 ∧ (link t (1 - l)).pass = (link s (1 - l)).pass ∧
        sameRegs s t [TK.NREPL_N l] ∧ offWire t = offWire s))) ∧
  (∀ (s : State) (part dir ref val : Nat), ∀ l < 3, linkRuns s l = true → part < 3 → dir < 2 →
    (link s l).parts = [] → Answers (.time l part dir ref val) s fun t =>
      (link t l).parts = [(part + 4 * dir + 8 * ref, val)] ∧ sameRegs s t [] ∧ offWire t = offWire s) ∧
  (∀ s : State, ∀ l < 3, exec (.transportNop l) s = .next s ∧ exec (.linkNop l) s = .next s)

/-- R291, R293–R295, R297, R298, R352: the lanes of a running link. -/
def Obligations.LanesDropAndReturn : Prop :=
  let keeps (s t : State) (l : Nat) (fs : List Fld) : Prop :=
    ((l = 2 ∨ get s DOM.HPATH_TSIDE ≠ l ∨ flag s TSU.TSTAT_QTK = false) → sameRegs s t fs) ∧
      (∀ f : Fld, ¬ [pTSU, pMGT].contains (codePage f.code) → (∀ g ∈ fs, f.code ≠ g.code) → get t f = get s f) ∧
      offWire { t with tsu := s.tsu } = offWire s
  (∀ (s : State) (k : Nat), ∀ l < 3, linkRuns s l = true → k < 4 →
    (∀ frm : Nat, bit (link s l).rxact k = true → bit (link s l).retr k = false → laneSet (link s l).rxact k false ≠ 0 →
      Answers (.lanedn l k frm) s fun t =>
        bit (link t l).rxact k = false ∧ bit (link t l).qual k = false ∧ bit (link t l).retr k = true ∧
        Sent s t (.link l 3 (2 ^ k * 2 ^ 34 + 2 ^ 33 + frm % 4096 * 2 ^ 21)) ∧ (l < 2 → evt t (pTKE + l) 10 = true) ∧
        keeps s t l (linkEvts l)) ∧
    (bit (link s l).retr k = true → lkpRuns s = true → Answers (.laneReady l k) s fun t =>
      Sent s t (.link l 4 (2 ^ k * 2 ^ 34)) ∧ sameRegs s t [] ∧ offWire t = offWire s) ∧
    (lkpRuns s = false → exec (.laneReady l k) s = .next s ∧ exec (.retrainTimeout l k) s = .next s) ∧
    (bit (link s l).retr k = true → lkpRuns s = true → Answers (.retrainTimeout l k) s fun t =>
      ((laneAt (link s l) k).tries < 9 → (link t l).retr = (link s l).retr ∧ (laneAt (link t l) k).tries = (laneAt (link s l) k).tries + 1 ∧
        sameRegs s t []) ∧
      (9 ≤ (laneAt (link s l) k).tries → bit (link t l).retr k = false ∧ bit (link t l).park k = true ∧ (l < 2 → evt t (pTKE + l) 16 = true)) ∧
      sameRegs s t (linkEvts l) ∧ offWire t = offWire s) ∧
    (∀ req stat : Nat, req < 1024 → stat < 64 → (∀ j ∈ [4, 6, 8], req / 2 ^ j % 4 ≠ 3) → (∀ j ∈ [0, 2, 4], stat / 2 ^ j % 4 ≠ 3) →
      Answers (.ltrn l k req stat) s fun t =>
        let y := laneAt (link t l) k
        let z := serveTaps (laneAt (link s l) k) (req / 8)
        (y.cm1, y.c0, y.cp1, y.stat) = (z.cm1, z.c0, z.cp1, z.stat) ∧ bit (link t l).pctx k = bit req 2 ∧
        (bit (link s l).retr k = false → (link s l).lost = false → y.req = z.req) ∧
        Sent s t (.link l 6 (k * 2 ^ 36 + y.req * 2 ^ 29 + (bit (link s l).pcrx k).toNat * 2 ^ 28 + (link s l).fclk.toNat * 2 ^ 27 +
          (link s l).rrdyOwn.toNat * 2 ^ 26 + y.stat * 2 ^ 20)) ∧ sameRegs s t [] ∧ offWire t = offWire s)) ∧
  (∀ (s : State) (lanes : Nat), ∀ l < 3, linkRuns s l = true → lanes < 16 →
    (∀ (lost : Bool) (frm : Nat), (link s l).txact &&& (15 - lanes) ≠ 0 → (link s l).stalled = false → Answers (.ldrop l lanes lost frm) s fun t =>
      (link t l).txact = ((link s l).txact &&& (15 - lanes)) ∧
      (lost = false → Sent s t (.link l 5 (((link s l).txact &&& (15 - lanes)) * 2 ^ 34))) ∧
      (lost = true → ∀ c ∈ (link s l).replay, bit lanes c.lane = true → (c.csn + 4096 - frm) % 4096 < 2048 →
        ∃ j lv, bit lanes j = false ∧ Sent s t (.codeword l j c.csn lv)) ∧
      (∀ j < 4, bit (link s l).txact j = true → bit lanes j = true → ∃ v, Sent s t (.train l j v)) ∧
      keeps s t l (if l < 2 then [TK.NREPL_N l] else [])) ∧
    (Answers (.ladd l lanes) s fun t =>
      (link t l).txact = ((link s l).txact ||| (lanes &&& allLanes l)) ∧
      Sent s t (.link l 5 ((link t l).txact * 2 ^ 34)) ∧ keeps s t l []) ∧
    (∀ q : Bool, (link s l).rxact < 16 → (link s l).retr < 16 → Answers (.lmask l lanes q) s fun t =>
      (link t l).rxact = (lanes &&& allLanes l) ∧
      (q = true → (link t l).retr = (link s l).retr ∧ (link t l).qual = (link s l).qual ∧ (link t l).rxQuiet = !(link s l).rxQuiet ∧
        keeps s t l []) ∧
      (q = false → ∀ j, bit (lanes &&& allLanes l) j = true → bit (link s l).rxact j = false →
        bit (link t l).retr j = false ∧ bit (link t l).qual j = true ∧ (l < 2 → evt t (pTKE + l) 11 = true)) ∧
      keeps s t l (linkEvts l))) ∧
  (∀ s : State, ∀ l < 3, linkRuns s l = true →
    (∀ mv : List Nat, Answers (.margin l mv) s fun t =>
      (l < 2 → ∀ j < 4, bit (link s l).rxact j = true → get t (TK.MARG_MV l j) = min 255 (mv.getD j 0)) ∧
      sameRegs s t (if l < 2 then (List.range 4).map (TK.MARG_MV l) ++ evts (pTKE + l) else []) ∧ offWire t = offWire s) ∧
    ((link s l).stalled = false → Answers (.clklost l) s fun t =>
      (link t l).stalled = true ∧ (link t l).fbtx = true ∧ (∀ j < 4, bit (link s l).txact j = true → ∃ v, Sent s t (.train l j v)) ∧
      keeps s t l []) ∧
    ((link s l).fbrx = false → Answers (.clkfallback l) s fun t =>
      (link t l).fbrx = true ∧ (link t l).lost = true ∧ Sent s t (.link l 7 0) ∧ (l < 2 → evt t (pTKE + l) 12 = true) ∧ keeps s t l (linkEvts l)) ∧
    (l < 2 → flag s (TK.LCFG_QEN l) = true → (link s l).quiet = false → (link s l).frames = [] → (link s l).cur = [] → Answers (.quiet l) s fun t =>
      let m := 2 ^ (lanesOf (link s l).txact).headD 0
      (link t l).quiet = true ∧ (link t l).txact = m ∧ (link t l).quietPrev = (link s l).txact ∧ Sent s t (.link l 5 (m * 2 ^ 34 + 2 ^ 33)) ∧
      evt t (pTKE + l) 17 = true ∧ keeps s t l (linkEvts l)) ∧
    ((link s l).quiet = true → (link s l).exiting = false → (link s l).txact < 16 → Answers (.quietExit l) s fun t =>
      (link t l).exiting = true ∧ (∀ j < 4, bit (link s l).quietPrev j = true → bit (link s l).txact j = false → ∃ v, Sent s t (.train l j v)) ∧
      sameRegs s t [] ∧ offWire t = offWire s) ∧
    ((link s l).quiet = true → (link s l).exiting = true → Answers (.quietRestore l) s fun t =>
      (link t l).quiet = false ∧ (link t l).txact = (link s l).quietPrev ∧ Sent s t (.link l 5 ((link s l).quietPrev * 2 ^ 34 + 2 ^ 33)) ∧
      keeps s t l []))

/-- R304–R306, R315: ACMD INSTALL and REWIND, and AUTHORITY_FRAME. -/
def Obligations.AuthorityRecord : Prop :=
  let took (s t : State) (did agen pos : Nat) : Prop :=
    let roleOk : Bool := role s = rSINGLE || role s = rPAIRING || role s = rACTIVE
    get t DOM.DID_ID = did ∧ get t DOM.AGEN_GEN = agen ∧ t.dom.recPos = some pos ∧ get t DOM.DROLE_HPOS = pos ∧
    (get s DOM.DROLE_HPOS ≠ pos → evt t pDOM 8 = true) ∧
    get t DOM.DROLE_AUTH = (if ownPos s = 0 then 0 else if pos = ownPos s ∧ roleOk = true then 1 else if get s DOM.DROLE_AUTH = 3 then 3 else 2) ∧
    (isHead s = true → ¬ (ownPos s ≠ 0 ∧ pos = ownPos s ∧ roleOk = true) → evt t pDOM 14 = true)
  (∀ (s e : State) (src : Src),
    (let pos := get s (DOM.ASTG 3) % 256
     Taken s src pDOM 0x60 [1#32] true e → Answers (.acmdInstall src true) s fun t =>
      took s t (get s (DOM.ASTG 1) % 2 ^ 32) (get s (DOM.ASTG 2) % 2 ^ 32) pos ∧
      (∀ l < 2, linkRuns s l = true → (link s l).own = [] → mayStart s l 45 = true → Sent s t (.mgmt l (recFrame s (stagedRec s)))) ∧
      (isHead s = false → sameOff s t [pDOM, pTSU, pMGT, pSVC, pTKE, pTKW] ∧ sameMem s t)) ∧
    (Taken s src pDOM 0x60 [2#32] false e → Answers (.acmdRewind src) s fun t =>
      t.cnv.blocks = s.cnv.blocks.map (fun b => if b.acked then b else { b with sent := false }) ∧ sameRegs s t svcs ∧ sameMem s t)) ∧
  (∀ (s : State) (did agen pos : Nat) (rec : RecSig), ∀ p < 2, linkRuns s p = true → pstate s pDOM ≠ stOFF →
    did < 2 ^ 32 → agen < 2 ^ 32 → pos < 256 →
    let fits : Bool := rec.good && (get s DOM.DID_ID = 0 || get s DOM.DID_ID = did) && (s.dom.recPos = none || newerBy 32 agen (get s DOM.AGEN_GEN))
    let conflict : Prop := rec.good = true ∧ get s DOM.DID_ID = did ∧ get s DOM.AGEN_GEN = agen ∧ ∃ q, s.dom.recPos = some q ∧ q ≠ pos
    (fits = true → Answers (.authorityFrame p did agen pos rec) s fun t =>
      took s t did agen pos ∧ (link t p).met = true ∧
      (isHead s = false → sameOff s t [pDOM, pTSU, pMGT, pTKE, pTKW] ∧ sameMem s t)) ∧
    (fits = false → conflict → Answers (.authorityFrame p did agen pos rec) s fun t =>
      evt t pDOM 13 = true ∧ (link t p).met = true ∧ sameRegs s t ([DOM.NFWD_N, TK.NREPL_N 0, TK.NREPL_N 1] ++ evts pDOM) ∧ offWire t = offWire s) ∧
    (fits = false → ¬ conflict → Answers (.authorityFrame p did agen pos rec) s fun t =>
      (link t p).met = true ∧ sameRegs s t [DOM.NFWD_N, TK.NREPL_N 0, TK.NREPL_N 1] ∧ offWire t = offWire s))

/-- R307–R310, R314, R315: BEACON, BEACON_SEND, COLL, TOPO and HBTO_EXPIRY. -/
def Obligations.BeaconsAndHops : Prop :=
  (∀ (s : State) (hpos agen hops g : Nat), ∀ p < 2, linkRuns s p = true → pstate s pDOM ≠ stOFF → hpos < 256 → agen < 65536 → hops < 255 → g < 256 →
    let stored := get s DOM.AGEN_GEN % 65536
    (s.dom.recPos ≠ none → agen ≠ stored → newerBy 16 agen stored = false → exec (.beacon p hpos agen hops g) s = .next s) ∧
    (agen = stored ∨ newerBy 16 agen stored = true → Answers (.beacon p hpos agen hops g) s fun t =>
      get t DOM.DROLE_HPOS = hpos ∧ (get s DOM.DROLE_HPOS ≠ hpos → evt t pDOM 8 = true) ∧
      get t DOM.TOPOG_G = (if newerBy 8 g (topog s) then g else topog s) ∧ (tget s.dom.beats p [] = [] → get t (hopFld p) = hops) ∧
      get t DOM.HPATH_TSIDE = timeSide t ∧
      (¬ (isHead s = true ∧ hpos = ownPos s) → tget s.dom.topoFwd p none ≠ some g →
        Told s t (1 - p) 6 (hpos * 2 ^ 36 + agen * 2 ^ 20 + (hops + 1) * 2 ^ 12 + g * 2 ^ 4)) ∧
      (tget s.dom.topoFwd p none = some g → ∀ b, ¬ Sent s t (.transport (1 - p) 6 b)) ∧
      sameRegs s t ([DOM.TOPOG_G, DOM.DROLE_HPOS, hopFld p, DOM.HPATH_TSIDE, DOM.NFWD_N, TK.NREPL_N 0, TK.NREPL_N 1] ++ evts pDOM) ∧ sameMem s t)) ∧
  (∀ s : State, isHead s = true → pstate s pDOM ≠ stOFF → Answers .beaconSend s fun t =>
    (∀ l < 2, Told s t l 6 (ownPos s * 2 ^ 36 + get s DOM.AGEN_GEN % 65536 * 2 ^ 20 + 2 ^ 12 + topog s * 2 ^ 4)) ∧ sameRegs s t [TK.NREPL_N 0, TK.NREPL_N 1] ∧
    offWire t = offWire s) ∧
  (∀ (s : State) (hops : Nat) (relay : Bool), ∀ p < 2, linkRuns s p = true → pstate s pDOM ≠ stOFF → hops < 254 → Answers (.coll p hops relay) s fun t =>
    (tget s.dom.beats (2 + p) [] = [] → get t (collFld p) = hops + 1) ∧ get t DOM.CPATH_RLY = relay.toNat ∧
    Told s t (1 - p) 9 ((hops + 1) * 2 ^ 36 + relay.toNat * 2 ^ 35) ∧
    (hops = 0 → relay ≠ flag s DOM.CPATH_RLY → get t DOM.TOPOG_G = (topog s + 1) % 256 ∧ evt t pDOM 11 = true ∧
      Told s t (1 - p) 11 (topoBody ((topog s + 1) % 256) (ownPos s) 3)) ∧
    (hops ≠ 0 ∨ relay = flag s DOM.CPATH_RLY → sameRegs s t [collFld p, DOM.CPATH_RLY, TK.NREPL_N 0, TK.NREPL_N 1] ∧ t.cnv = s.cnv) ∧
    sameRegs s t ([collFld p, DOM.CPATH_RLY, DOM.TOPOG_G, TK.NREPL_N 0, TK.NREPL_N 1] ++ evts pDOM) ∧ sameMem s t) ∧
  (∀ (s : State) (g pos cause : Nat), ∀ p < 2, linkRuns s p = true → pstate s pDOM ≠ stOFF → g < 256 →
    (newerBy 8 g (topog s) = true → Answers (.topo p g pos cause) s fun t =>
      topog t = g ∧ (∀ b ∈ t.cnv.blocks, b.acked = false → b.sent = false) ∧ Told s t (1 - p) 11 (topoBody g pos cause) ∧
      sameRegs s t [DOM.TOPOG_G, TK.NREPL_N 0, TK.NREPL_N 1] ∧ sameMem s t) ∧
    (newerBy 8 g (topog s) = false → exec (.topo p g pos cause) s = .next s)) ∧
  (∀ s : State, ∀ p < 2, pstate s pDOM ≠ stOFF →
    (Answers (.hbtoExpiry p true) s fun t => get t (collFld p) = 255 ∧ tget t.dom.beats (2 + p) [] = [] ∧ sameRegs s t [collFld p] ∧
      unlogged { t with dom := s.dom } = unlogged s) ∧
    (Answers (.hbtoExpiry p false) s fun t => get t (hopFld p) = 255 ∧ tget t.dom.beats p [] = [] ∧
      (link t p).met = true ∧
      sameRegs s t [hopFld p, DOM.HPATH_TSIDE, DOM.NFWD_N, TK.NREPL_N 0, TK.NREPL_N 1] ∧ offWire { t with dom := s.dom } = offWire s))

/-- R266, R311, R313, R317, R319: CREDIT, CREDIT_SEND, TDIST, TDIST_SEND and REPORT. -/
def Obligations.CreditTimeAndReports : Prop :=
  (∀ (s : State) (cred srcs : Nat), ∀ p < 2, linkRuns s p = true → cred < 65536 → srcs < 256 →
    (Answers (.credit p cred srcs) s fun t =>
      (link t p).cred = cred ∧ get t (if p = 0 then DOM.SRCS_SE else DOM.SRCS_SW) = srcs ∧
      sameRegs s t [if p = 0 then DOM.SRCS_SE else DOM.SRCS_SW, DOM.NFWD_N, TK.NREPL_N 0, TK.NREPL_N 1] ∧ offWire t = offWire s) ∧
    (Answers (.creditSend p) s fun t =>
      Told s t p 5 ((link s p).grant % 65536 * 2 ^ 28 + min 255 (((link s p).ownT.any fun q => decide (nowNs s ≤ q + 10000000)).toNat +
        if linkRuns s (1 - p) then get s (if p = 0 then DOM.SRCS_SW else DOM.SRCS_SE) else 0) * 2 ^ 20) ∧
      (link t p).freed = 0 ∧ (link t p).grant = (link s p).grant ∧ sameRegs s t [TK.NREPL_N p] ∧ offWire t = offWire s)) ∧
  (∀ (s : State) (oup : Int) (hops : Nat), ∀ p < 2, linkRuns s p = true → pstate s pDOM ≠ stOFF →
    (rootMoved s p hops = true → Answers (.tdist p oup hops) s fun t =>
      t.dom.keeperPos = none ∧ get t DOM.HPATH_TSIDE = timeSide t ∧ t.time = s.time ∧
      sameRegs s t [DOM.HPATH_TSIDE, TSU.TKOFS_OFS, TSU.TSTAT_SAT] ∧ sameMem s t) ∧
    (rootMoved s p hops = false → get s DOM.HPATH_TSIDE = p → isHead s = false → isKeeper s = false ∨ hearsHead s = true → lkpRuns s = true → Answers (.tdist p oup hops) s fun t =>
      get t TSU.TKOFS_OFS = ofSigned 32 (max (-0x80000000) (min 0x7FFFFFFF (oup - toSigned 32 (get s (TK.LOFS_OFS p))))) ∧
      t.time = s.time ∧ sameRegs s t [TSU.TKOFS_OFS, TSU.TSTAT_SAT] ∧ sameMem s t) ∧
    (rootMoved s p hops = false → get s DOM.HPATH_TSIDE ≠ p ∨ isHead s = true ∨ (isKeeper s = true ∧ hearsHead s = false) ∨ lkpRuns s = false → Answers (.tdist p oup hops) s fun t =>
      t.dom.oup = tset s.dom.oup p (some (oup, s.cyc)) none ∧ sameRegs s t [] ∧ unlogged { t with dom := s.dom } = unlogged s) ∧
    (Answers (.tdistSend p) s fun t =>
      (isHead s = true ∨ isKeeper s = true → Told s t p 7 0) ∧
      (isHead s = false → isKeeper s = false → Told s t p 7 (get s TSU.TKOFS_OFS * 2 ^ 12 + rootHops s * 2 ^ 4)) ∧
      sameRegs s t [TK.NREPL_N p] ∧ offWire t = offWire s)) ∧
  (∀ (s : State) (pos unit reason epoch : Nat), ∀ p < 2, linkRuns s p = true → pstate s pDOM ≠ stOFF →
    pos < 256 → unit < 4 → reason < 16 → epoch < 2 ^ 30 →
    (isHead s = true → Answers (.report p pos unit reason epoch) s fun t =>
      (get t DOM.RPT_POS, get t DOM.RPT_UNIT, get t DOM.RPT_REASON, get t DOM.RPTEP_EP) = (pos, unit, reason, epoch) ∧ evt t pDOM 16 = true ∧
      (reason = 3 → evt t pDOM 12 = true) ∧ sameRegs s t ([DOM.RPT_POS, DOM.RPT_UNIT, DOM.RPT_REASON, DOM.RPTEP_EP] ++ evts pDOM) ∧
      unlogged t = unlogged s) ∧
    (isHead s = false → get s DOM.HPATH_TSIDE ≠ p → Answers (.report p pos unit reason epoch) s fun t =>
      Told s t (1 - p) 10 (pos * 2 ^ 36 + unit * 2 ^ 34 + reason * 2 ^ 30 + epoch) ∧ sameRegs s t [TK.NREPL_N 0, TK.NREPL_N 1] ∧ offWire t = offWire s) ∧
    (isHead s = false → get s DOM.HPATH_TSIDE = p → exec (.report p pos unit reason epoch) s = .next s))

/-- R321–R323: ISLAND, CAND, CAND_SEND, KEEPER, TKEEP and REJOIN. -/
def Obligations.Islands : Prop :=
  (∀ s : State, pstate s pDOM ≠ stOFF → get s DOM.DROLE_AUTH = 2 → Answers .island s fun t =>
    get t DOM.DROLE_AUTH = 3 ∧ get t DOM.HPATH_HOPE = 255 ∧ get t DOM.HPATH_HOPW = 255 ∧ evt t pDOM 9 = true ∧ t.dom.keeperPos = none ∧
    sameRegs s t ([DOM.DROLE_AUTH, DOM.HPATH_HOPE, DOM.HPATH_HOPW, DOM.HPATH_TSIDE] ++ evts pDOM) ∧ sameMem s t) ∧
  (∀ (s : State) (pos prehops g : Nat), ∀ p < 2, g < 256 → linkRuns s p = true → pstate s pDOM ≠ stOFF → get s DOM.DROLE_AUTH = 3 →
    (prehops, pos) ≠ ownCand s → (∀ b, bestCand s = some b → outranks b (prehops, pos) = false) → Answers (.cand p pos prehops g) s fun t =>
      t.dom.best = some (prehops, pos) ∧ t.dom.bestAt = s.cyc ∧ topog t = (if newerBy 8 g (topog s) then g else topog s) ∧
      (outranks (ownCand s) (prehops, pos) = false → Told s t (1 - p) 8 (pos * 2 ^ 36 + prehops * 2 ^ 28 + topog t * 2 ^ 20)) ∧
      (outranks (ownCand s) (prehops, pos) = true → t.out = s.out) ∧ sameRegs s t [DOM.TOPOG_G, TK.NREPL_N 0, TK.NREPL_N 1] ∧ sameMem s t) ∧
  (∀ s : State, pstate s pDOM ≠ stOFF → get s DOM.DROLE_AUTH = 3 → Answers .candSend s fun t =>
      (∀ l < 2, Told s t l 8 (ownPos s * 2 ^ 36 + s.dom.prehops * 2 ^ 28 + topog s * 2 ^ 20)) ∧ sameRegs s t [TK.NREPL_N 0, TK.NREPL_N 1] ∧ offWire t = offWire s) ∧
  (∀ s : State, pstate s pDOM ≠ stOFF → get s DOM.DROLE_AUTH = 3 → isKeeper s = false →
    ((∀ b, bestCand s = some b → outranks b (ownCand s) = false) → Answers .keeper s fun t =>
      isKeeper t = true ∧ evt t pDOM 15 = true ∧ get t TSU.TKOFS_OFS = 0 ∧ (∀ l < 2, Told s t l 12 (ownPos s * 2 ^ 36 + topog s * 2 ^ 28)) ∧
      (pstate s pTSU ≠ stOFF → pstate t pTSU = stIDLE ∧ get t TSU.TSTAT_SRC = 0 ∧ get t TSU.TSTAT_FRN = 1) ∧ t.time = s.time ∧
      increment36 t = increment36 s ∧ sameOff s t [pDOM, pTSU, pMGT, pTKE, pTKW] ∧ sameMem s t) ∧
    (∀ (pos g hops : Nat), ∀ p < 2, g < 256 → linkRuns s p = true → Answers (.tkeep p pos g hops) s fun t =>
      t.dom.keeperPos = some pos ∧ tget t.dom.keepHops p 255 = hops ∧
      get t DOM.HPATH_TSIDE = (if tget t.dom.keepHops 1 255 < tget t.dom.keepHops 0 255 then 1 else 0) ∧
      (hops < 255 → Told s t (1 - p) 12 (pos * 2 ^ 36 + g * 2 ^ 28 + (hops + 1) * 2 ^ 20)) ∧ (255 ≤ hops → t.out = s.out) ∧
      topog t = (if newerBy 8 g (topog s) then g else topog s) ∧ sameRegs s t [DOM.HPATH_TSIDE, DOM.TOPOG_G, TK.NREPL_N 0, TK.NREPL_N 1] ∧ sameMem s t) ∧
    (hearsHead s = true → (tkofs s).natAbs ≤ get s DOM.RJTOL_NS * 256 → Answers .rejoin s fun t =>
      get t DOM.DROLE_AUTH = (if ownPos s = 0 then 0 else if recordHead s then 1 else 2) ∧ evt t pDOM 10 = true ∧
      (∀ e, s.dom.headEpoch = some e → e ≠ get s SCH.EPOCHL_EP →
        Told s t (get t DOM.HPATH_TSIDE) 10 (ownPos s * 2 ^ 36 + ownUnit s * 2 ^ 34 + 3 * 2 ^ 30 + get s SCH.EPOCHL_EP % 2 ^ 30)) ∧
      (s.dom.headEpoch = some (get s SCH.EPOCHL_EP) → t.out = s.out) ∧
      sameRegs s t ([DOM.DROLE_AUTH, DOM.DROLE_KEEP, DOM.HPATH_TSIDE, TK.NREPL_N 0, TK.NREPL_N 1] ++ evts pDOM) ∧ sameMem s t))

/-- R327–R332, R336, R346, R171: TCMD, PAIRED, PAIRING_TIMEOUT, ROLE and ROLE_SEND. -/
def Obligations.TwinRoles : Prop :=
  (∀ (s e : State) (src : Src),
    let frame (t : State) : Prop := sameOff s t (pSVC :: pTKE :: pTKW :: rolePages) ∧ sameMem s t
    (Taken s src pTWL 0x40 [1#32] false e → Answers (.twlIsolate src) s fun t =>
      role t = rISOLATED ∧ evt t pTWL 8 = true ∧ Dark t ∧ frame t) ∧
    (Taken s src pTWL 0x40 [2#32] false e → s.twl.paired = false → Answers (.twlRejoin src) s fun t =>
      role t = rPAIRING ∧ evt t pTWL 8 = true ∧ Dark t ∧ frame t) ∧
    (Taken s src pTWL 0x40 [3#32] false e → Answers (.twlRelease src) s fun t =>
      role t = rSTANDBY ∧ evt t pTWL 8 = true ∧ Told s t 2 6 (9 * 2 ^ 40) ∧ Dark t ∧ frame t) ∧
    (Taken s src pTWL 0x40 [4#32] false e → Answers (.twlResync src) s fun t =>
      t.twl = { s.twl with fullReq := true, thpShown := true, driving := heartbeatDrives s } ∧
      Told s t 2 7 (role s * 2 ^ 40 + s.twl.strap * 2 ^ 38 + get s TWL.CGEN_N * 2 ^ 6) ∧ sameBut s t svcs [pEXC, pMGT] ∧ sameMem s t)) ∧
  (∀ (s : State) (pos unit oshr : Nat) (good : Bool) (ogen maxf p code : Nat) (sealed : Bool) (pdig far : List Word), twin s = true → linkRuns s 2 = true → p < 16 → get s (UPD.ILVL_LST 0) ≠ 5 →
    let ok : Bool := good && pos = ownPos s && ((s.twl.strap = 1 && unit = 2) || (s.twl.strap = 2 && unit = 1)) && oshr = get s OPT.OSHR_SHR &&
      flag s SEC.OSTAT_ENDRS && ogen = get s SEC.OGEN_GEN && decide (4095 ≤ maxf) && ((pcap s pMTR % 2 = 1 && code = 2) ||
        (pstate s pMTR != stSEALED && pstate s pMTR != stFAULT && s.mtr.record.isNone && s.mtr.op.isNone && !sealed))
    (ok = true → Answers (.paired pos unit oshr good ogen maxf p ⟨code, sealed, pdig, far⟩) s fun t =>
      t.twl.paired = true ∧ t.twl.pairFail = false ∧ t.twl.pcode = code ∧ t.twl.psealed = sealed ∧ t.twl.pdig = pdig ∧ t.twl.failRx = none ∧
      t.twl.key = (if s.twl.strap = 1 then keysOf s.fresh (exactly 24 far) (nonceAt s.fresh) (exactly 8 (far.drop 24))
        else keysOf s.fresh (exactly 24 far) (exactly 8 (far.drop 24)) (nonceAt s.fresh)) ∧ get t TWL.TROLE_PROLE = p ∧
      (role s = rPAIRING → p = rACTIVE ∨ p = rTAKEOVER → role t = rSTANDBY ∧ t.twl.fullReq = true) ∧
      (role s = rPAIRING → p = rPAIRING → role t = if s.twl.strap = 1 then rACTIVE else rSTANDBY) ∧
      (role s = rPAIRING → p = rSTANDBY ∨ p = rYIELD → role t = rSTANDBY ∧ Told s t 2 6 (10 * 2 ^ 40)) ∧
      (role s = rPAIRING → p = rISOLATED → exciteSeen s = false → role t = rACTIVE) ∧
      (role s ≠ rPAIRING → role s ≠ rYIELD → role t = role s) ∧
      (∀ r, s.mtr.record = some r → pstate s pMTR = stSEALED → sealed = true → pdig ≠ r.pdig →
        get t MTR.MSTAT_TWMIS = 1 ∧ (get s MTR.MSTAT_TWMIS = 0 → evt t pMTR 14 = true)) ∧
      sameOff s t (pMTR :: rolePages) ∧ sameMem s t) ∧
    (ok = false → Answers (.paired pos unit oshr good ogen maxf p ⟨code, sealed, pdig, far⟩) s fun t =>
      t.twl.paired = false ∧ t.twl.pairFail = true ∧ twinSilent t = true ∧ (s.twl.pairFail = false → evt t pTWL 16 = true) ∧
      (twinSilent s = false → evt t pTWL 9 = true ∧ get t TWL.TROLE_PAUSE = 0 ∧ t.twl.rx = []) ∧ (s.twl.pairFail = true → sameRegs s t []) ∧
      sameRegs s t ([TWL.TROLE_PAUSE, TWL.NCKD_N, TWL.TROLE_CFGB] ++ evts pTWL) ∧ unlogged { t with twl := s.twl } = unlogged s)) ∧
  (∀ s : State, twin s = true → role s = rPAIRING → s.twl.paired = false → get s (UPD.ILVL_LST 0) ≠ 5 →
    ∀ l : List (Nat × Nat), (∀ e ∈ l, e.1 < 192 ∧ e.2 < 65536) →
      (anyPresent (senseVolts s l) = true → Answers (.pairingTimeout l) s fun t =>
        role t = rSTANDBY ∧ evt t pTWL 9 = true ∧ Dark t ∧ sameOff s t (rolePages ++ (List.range 48).map bankPage) ∧ sameMem s t) ∧
      (anyPresent (senseVolts s l) = false → Answers (.pairingTimeout l) s fun t =>
        role t = rACTIVE ∧ t.twl.tkoT = s.twl.tkoT ∧ sameOff s t (rolePages ++ (List.range 48).map bankPage) ∧ sameMem s t)) ∧
  (∀ (s : State) (l : List (Nat × Nat)), role s = rPAIRING → get s (UPD.ILVL_LST 0) = 5 → exec (.pairingTimeout l) s = .next s) ∧
  (∀ (s : State) (code unit cgen : Nat), twin s = true → linkRuns s 2 = true → code < 16 → cgen < 2 ^ 32 → Answers (.role code unit cgen) s fun t =>
    get t TWL.TROLE_PROLE = code ∧ get t TWL.PCGEN_N = cgen ∧ (∀ b ∈ t.twl.backlog, b ∈ s.twl.backlog ∧ newerBy 32 b.1 cgen = true) ∧
    (s.twl.paired = false → role t = role s ∧ sameRegs s t [TWL.TROLE_PROLE, TWL.PCGEN_N]) ∧
    (s.twl.paired = true → role s = rYIELD → code = rACTIVE ∨ code = rTAKEOVER → role t = rSTANDBY ∧ t.twl.fullReq = true) ∧
    (code = rACTIVE ∨ code = rTAKEOVER → t.twl.failRx = none) ∧
    (twinUp s = true → role s = rACTIVE → code = rSTANDBY → get s TWL.TROLE_PROLE ≠ rSTANDBY →
      get t TWL.CKN_N = (get s TWL.CKN_N + 1) % 2 ^ 32 ∧ t.twl.sentGen = get s TWL.CGEN_N) ∧
    sameOff s t rolePages ∧ sameMem s t) ∧
  (∀ s : State, twin s = true → Answers .roleSend s fun t =>
    Told s t 2 7 (role s * 2 ^ 40 + s.twl.strap * 2 ^ 38 + get s TWL.CGEN_N * 2 ^ 6) ∧ sameRegs s t [] ∧ offWire t = offWire s)

/-- R328, R335, R337, R340–R346: HEALTH, HEALTH_SEND, PAUSE, RESUME, PAUSE_EXPIRY, FAIL, OWN_FAILURE, TWIN_LINK_LOST, HBVIOL, TAKEOVER and
FOREIGN. -/
def Obligations.HeartbeatAndTakeover : Prop :=
  (∀ s : State, twin s = true → linkRuns s 2 = true →
    (∀ w : Word, Answers (.health w) s fun t =>
      get t TWL.PHWORD = w.toNat ∧ (∀ b ∈ t.twl.backlog, b ∈ s.twl.backlog) ∧ sameRegs s t [TWL.PHWORD] ∧
      unlogged { t with twl := s.twl } = unlogged s) ∧
    (exec .pause s = .next (put { s with twl := { s.twl with absent := 0 } } TWL.TROLE_PAUSE 1)) ∧
    (flag s TWL.TROLE_PAUSE = true → exec .resume s = .next (put { s with twl := { s.twl with absent := 0 } } TWL.TROLE_PAUSE 0)) ∧
    (flag s TWL.TROLE_PAUSE = false → exec .resume s = .next s) ∧
    (∀ cls : Nat, exec (.fail cls) s = .next { s with twl := { s.twl with failRx := some cls } })) ∧
  (∀ s : State, twin s = true →
    (flag s TWL.TROLE_PAUSE = true → exec .pauseExpiry s = .next (put { s with twl := { s.twl with absent := 0 } } TWL.TROLE_PAUSE 0)) ∧
    (flag s TWL.TROLE_PAUSE = false → exec .pauseExpiry s = .next s) ∧
    (twinUp s = true → Answers .healthSend s fun t => Told s t 2 3 (healthWord s * 2 ^ 12) ∧ sameRegs s t [] ∧ offWire t = offWire s) ∧
    (∀ cls : Nat, failClass s cls = true → role s ≠ rISOLATED → Answers (.ownFailure cls) s fun t =>
      role t = rISOLATED ∧ evt t pTWL 8 = true ∧ Told s t 2 6 (cls * 2 ^ 40) ∧ Dark t ∧ sameOff s t rolePages ∧ sameMem s t) ∧
    (s.twl.silent = false → s.twl.pairFail = true → exec .twinLinkLost s = .next { s with twl := { s.twl with silent := true, paired := false } }) ∧
    (twinSilent s = false → Answers .twinLinkLost s fun t =>
      t.twl.silent = true ∧ t.twl.paired = false ∧ t.twl.rx = [] ∧ role t = role s ∧ get t TWL.TROLE_PAUSE = 0 ∧ evt t pTWL 9 = true ∧
      (s.twl.rx ≠ [] → get t TWL.NCKD_N = min (get s TWL.NCKD_N + 1) 65535 ∧ evt t pTWL 17 = true) ∧
      sameRegs s t ([TWL.TROLE_PAUSE, TWL.NCKD_N, TWL.TROLE_CFGB] ++ evts pTWL) ∧ unlogged { t with twl := s.twl } = unlogged s) ∧
    (role s = rSTANDBY ∨ role s = rYIELD ∨ role s = rISOLATED → flag s TWL.TROLE_PAUSE = false → anyPresent s = false →
      (twinSilent s = false → s.twl.failRx = none → Answers .hbviol s fun t =>
        evt t pTWL 15 = true ∧ role t = role s ∧ thpCycles s 3 ≤ t.twl.absent ∧ thpCycles s 3 ≤ t.twl.gap ∧
        sameRegs s t (evts pTWL) ∧ unlogged { t with twl := s.twl } = unlogged s) ∧
      (role s ≠ rISOLATED → twinSilent s = true ∨ s.twl.failRx ≠ none → ownFail s = none → Answers .takeover s fun t =>
        role t = (if allHeartDrive s then rACTIVE else rTAKEOVER) ∧ (allHeartDrive s = true → t.twl.tkoT = some (now16 s)) ∧
        evt t pTWL 10 = true ∧ get t TWL.NTKO_N = min (get s TWL.NTKO_N + 1) 65535 ∧ t.twl.failRx = none ∧
        sameOff s t rolePages ∧ sameMem s t)) ∧
    (∀ n < 48, ∀ q < 4, role s = rACTIVE ∨ role s = rTAKEOVER → heartbeat s n = true → get s (BNK.QCFG_QM n q) ≠ 0 →
      flag s (BNK.QSTAT_ON n q) = true → departs s n q 4 = true ∨ flag s (BNK.QSTAT_ILIM n q) = true →
      (s.twl.strap = 2 → Answers .foreign s fun t =>
        role t = rYIELD ∧ evt t pTWL 11 = true ∧ get t TWL.NYLD_N = min (get s TWL.NYLD_N + 1) 65535 ∧ Dark t ∧ sameOff s t rolePages ∧
        sameMem s t) ∧
      (s.twl.strap ≠ 2 → Answers .foreign s fun t =>
        role t = role s ∧ get t TWL.TROLE_FOREIGN = 1 ∧ evt t pTWL 14 = true ∧ sameRegs s t (TWL.TROLE_FOREIGN :: evts pTWL) ∧
        unlogged { t with twl := s.twl } = unlogged s)))

/-- R334, R336–R338, R341, R346: SUMMARY, SUMMARY_SEND, CHECKPOINT_CUT and CHECKPOINT_FRAME. -/
def Obligations.SummariesAndCheckpoints : Prop :=
  (∀ (s : State) (k : Nat), twin s = true →
    (role s = rACTIVE → twinUp s = true → (link s 2).own = [] → 790 ≤ negMax s 2 → Answers (.summarySend k) s fun t =>
      Sent s t (.mgmt 2 (summaryWords s.twl.key k (summaryOf s k))) ∧ (summaryWords s.twl.key k (summaryOf s k)).length = 790 ∧ sameRegs s t [] ∧
      offWire { t with chans := s.chans } = offWire s) ∧
    (∀ c : Nat, role s = rISOLATED → ownFail s = some c → s.twl.peerSum = none → Answers (.summarySend k) s fun t =>
      Told s t 2 6 (c * 2 ^ 40) ∧ t.twl.ownSum = some (k, summaryOf s k) ∧ sameRegs s t [] ∧
      offWire { t with chans := s.chans, twl := s.twl } = offWire s) ∧
    (role s = rSTANDBY → s.twl.peerSum = none →
      exec (.summarySend k) s = .next { dropSums s k with twl := { s.twl with ownSum := some (k, summaryOf s k) } }) ∧
    (∀ l : List (Nat × Int), twinUp s = true →
      (s.twl.ownSum = none → exec (.summary k l) s = .next { s with twl := { s.twl with peerSum := some (k, l) } }) ∧
      (∀ own : List (Nat × Int), s.twl.ownSum = some (k, own) → role s = rSTANDBY ∨ role s = rISOLATED →
        let next : Bool := s.twl.lastCmp.any fun j => k = j + 1
        let bad (ch : Nat) : Prop :=
          let a := own.getD ch (0, 0)
          let b := l.getD ch (0, 0)
          a.1 = b.1 ∧ a.1 ≠ 0 ∧ get s TWL.AGREE_CODES < (a.2 - b.2).natAbs ∧ freshCfg s k ch = false
        ((∀ ch < 784, ¬ bad ch) → Answers (.summary k l) s fun t =>
          t.twl.goodRuns = (if next then s.twl.goodRuns else 0) + 1 ∧ (3 ≤ t.twl.goodRuns → get t TWL.TROLE_DIS = 0) ∧ t.twl.ownSum = none ∧
          t.twl.peerSum = none ∧ t.twl.lastCmp = some k ∧
          sameRegs s t [TWL.TROLE_DIS] ∧ sameMem s t) ∧
        (∀ ch < 784, bad ch → Answers (.summary k l) s fun t =>
          t.twl.goodRuns = 0 ∧ get t TWL.NDIS_N = min (get s TWL.NDIS_N + 1) 65535 ∧ t.twl.lastCmp = some k ∧
          (chan t ch).disRun = (if next then (chan s ch).disRun else 0) + 1 ∧ get t TWL.DISCH_VAL = 1 ∧ get t TWL.DISCH_CH ≤ ch ∧
          (3 ≤ (chan t ch).disRun → get t TWL.TROLE_DIS = 1 ∧ evt t pTWL 12 = true) ∧
          sameRegs s t ([TWL.NDIS_N, TWL.TROLE_DIS, TWL.DISCH_VAL, TWL.DISCH_CH] ++ evts pTWL) ∧ sameMem s t)))) ∧
  (∀ s : State, twin s = true → twinUp s = true → role s = rACTIVE ∨ role s = rTAKEOVER → ckptLive s = false → Answers .checkpointCut s fun t =>
    get t TWL.CKN_N = (get s TWL.CKN_N + 1) % 2 ^ 32 ∧ t.twl.fullDue = false ∧ t.twl.sentGen = get s TWL.CGEN_N ∧
    (s.twl.backlog = [] → s.twl.fullDue = false → (link s 2).own = [] → 400 ≤ negMax s 2 → ∃ ws, Sent s t (.mgmt 2 ws) ∧
      ws.length = 12 + 6 * ((List.range 64).filter fun c => cstate s c != stOFF).length ∧ ws.take 2 = [wd (2 ^ 24 + 2 ^ 8), wd (get t TWL.CKN_N)]) ∧
    sameRegs s t [TWL.CKN_N] ∧ sameMem s t) ∧
  (∀ (s : State) (f : CkFrame), twin s = true → twinUp s = true → role s = rSTANDBY ∨ role s = rYIELD ∨ role s = rISOLATED →
    f.fidx = s.twl.rx.length → (∀ g ∈ s.twl.rx, g.ckn = f.ckn) →
    let bs := (s.twl.rx ++ [f]).flatMap (·.bursts)
    let d := (f.cgen + 2 ^ 32 - get s TWL.CGEN_N) % 2 ^ 32
    (f.good = true → f.fidx + 1 ≠ f.nfr → exec (.checkpointFrame f) s = .next { s with twl := { s.twl with rx := s.twl.rx ++ [f] } }) ∧
    (ckWhole (s.twl.rx ++ [f]) = true →
      (f.full = false → f.cgen = get s TWL.CGEN_N → bs = [] → Answers (.checkpointFrame f) s fun t =>
        get t TWL.CKN_N = f.ckn % 2 ^ 32 ∧ get t TWL.CGEN_N = get s TWL.CGEN_N ∧ t.twl.rx = [] ∧
        (∀ b ∈ t.cnv.blocks, ∀ x ∈ f.ctxs, x.ctx = b.ctx → b.tlast ≤ x.ackt → b.acked = true) ∧
        sameOff s t [pTWL, pSTM, pQUE, pCDC, pCNV, pMGT] ∧ sameMem s t) ∧
      (f.full = false → newerBy 32 f.cgen (get s TWL.CGEN_N) = true → d ≤ bs.length → f.cgen < 2 ^ 32 → Answers (.checkpointFrame f) s fun t =>
        get t TWL.CGEN_N = f.cgen ∧ get t TWL.CKN_N = f.ckn % 2 ^ 32) ∧
      (f.full = false → newerBy 32 f.cgen (get s TWL.CGEN_N) = true → bs.length < d → Answers (.checkpointFrame f) s fun t =>
        evt t pTWL 13 = true ∧ get t TWL.CGEN_N = get s TWL.CGEN_N ∧ t.twl.rx = [] ∧
        (newerBy 32 (get s TWL.PCGEN_N) (get s TWL.CGEN_N) = true → get t TWL.TROLE_CFGB = 1) ∧
        sameOff s t [pTWL, pSTM, pQUE, pCDC, pCNV, pMGT] ∧ sameMem s t)) ∧
    (f.good = false → exec (.checkpointFrame f) s = .next { s with twl := { s.twl with rx := s.twl.rx ++ [f] } })) ∧
  (∀ (s : State) (f g : CkFrame) (r : List CkFrame), twin s = true → twinUp s = true → role s = rSTANDBY ∨ role s = rYIELD ∨ role s = rISOLATED →
    s.twl.rx = g :: r → f.good = true → f.fidx = 0 → f.nfr ≠ 1 → Answers (.checkpointFrame f) s fun t =>
      t.twl.rx = [f] ∧ get t TWL.NCKD_N = min (get s TWL.NCKD_N + 1) 65535 ∧ evt t pTWL 17 = true ∧ get t TWL.CGEN_N = get s TWL.CGEN_N ∧
      (newerBy 32 g.cgen (get s TWL.CGEN_N) = true → get t TWL.TROLE_CFGB = 1 ∧ evt t pTWL 13 = true) ∧
      sameRegs s t ([TWL.NCKD_N, TWL.TROLE_CFGB] ++ evts pTWL) ∧ unlogged { t with twl := s.twl } = unlogged s)

/-- R34, R356, R358, R359, R361, R372, R377, R386: SESSION_OPEN, CONFIRM, SESSFAIL, SESSION_TIMEOUT, ATTACH, DETACH and HOST_CONFIGURED. -/
def Obligations.SessionsOpenAndClose : Prop :=
  (∀ (s : State) (path : Path) (qr nr : List Word) (cert : Option Cert),
    let now : Bool := timeKnown s
    let ok (c : Cert) : Prop := c.good = true ∧ (c.serial = serial s ∨ c.serial = 0) ∧ (now = true → nowNs s < c.notAfter * 1000000000)
    let wait : Prop := get s (UPD.ILVL_LST 0) = 5 ∧ path = .svc
    let down : Prop := mgpRuns s = false ∧ ¬ wait
    let busy : Prop := down ∨ 8 ≤ (sessionIds s).length
    let refused (code : Nat) : Prop := Answers (.sessionOpen path ⟨qr, nr, cert⟩) s fun t =>
      Sent s t (.accept path code 0 0#32 []) ∧ sessionIds t = sessionIds s ∧
      sameRegs s t (hPEVT pMGT :: svcs) ∧ sameMem s t
    let accepted (t : State) (sid : Nat) (cw : List Word) : Prop :=
      Sent s t (.accept path 0 sid 0#32 (acceptWords s sid (exactly 24 qr ++ exactly 8 nr ++ cw)))
    (down → Answers (.sessionOpen path ⟨qr, nr, cert⟩) s fun t =>
      (∃ w, Sent s t (.accept path 6 0 w [])) ∧ t.sessions = s.sessions ∧ t.log = s.log ∧ sameRegs s t svcs ∧ sameMem s t) ∧
    (¬ down → 8 ≤ (sessionIds s).length → refused 6) ∧
    (¬ busy → flag s SEC.OSTAT_OWNED = true → (∀ c, cert = some c → ¬ ok c) → refused 4) ∧
    (¬ busy → flag s SEC.OSTAT_OWNED = false → path ≠ .svc → refused 4) ∧
    (∀ sid < 8, ¬ busy → session s sid = none → (∀ i < sid, session s i ≠ none) →
      (flag s SEC.OSTAT_OWNED = false → path = .svc → Answers (.sessionOpen path ⟨qr, nr, cert⟩) s fun t =>
        (∃ x, session t sid = some x ∧ x.open_ = true ∧ x.role = .owner ∧ x.path = .svc ∧ x.next = 1 ∧ x.keys = sessionKeys s qr nr) ∧
        accepted t sid [] ∧ evt t pSEC 8 = true ∧ sameRegs s t (svcs ++ evts pSEC) ∧ sameMem s t) ∧
      (∀ c, cert = some c → flag s SEC.OSTAT_OWNED = true → ok c → Answers (.sessionOpen path ⟨qr, nr, cert⟩) s fun t =>
        (∃ x, session t sid = some x ∧ x.open_ = false ∧ x.role = c.role ∧ x.path = path ∧ x.next = 1 ∧ x.keys = sessionKeys s qr nr) ∧
        accepted t sid (certWords c) ∧ sameRegs s t (svcs ++ evts pSEC) ∧ sameMem s t))) ∧
  (∀ (s : State) (sid : Nat) (x : Session), session s sid = some x →
    (x.open_ = false →
      (Answers (.confirm sid true) s fun t =>
        (∃ y, session t sid = some y ∧ y.open_ = true ∧ y.role = x.role ∧ y.path = x.path) ∧ evt t pSEC 8 = true ∧
        sameRegs s t (SVC.SVRX_N :: evts pSEC) ∧ inside t = inside s) ∧
      (Answers (.confirm sid false) s fun t =>
        session t sid = none ∧ evt t pSEC 9 = true ∧ sameRegs s t (SVC.SVRX_N :: evts pSEC) ∧ inside t = inside s) ∧
      (Answers (.sessfail sid) s fun t => session t sid = none ∧ evt t pSEC 9 = true ∧ sameRegs s t (evts pSEC) ∧ inside t = inside s)) ∧
    (x.open_ = true → Answers (.sessionTimeout sid) s fun t =>
      session t sid = none ∧ (flag s UPD.USTAT_HELD = true → get s UPD.USTAT_SID = sid → get t UPD.USTAT_HELD = 0 ∧ get t UPD.USTAT_STAGE = 0) ∧
      (get s UPD.USTAT_SID ≠ sid → sameRegs s t [hPEVT pMGT]) ∧ sameOff s t [pUPD, pMGT] ∧ sameMem s t)) ∧
  (∀ s : State, pstate s pSVC = stOFF → Answers .detach s fun t =>
    (∀ i < 8, ∀ x, session t i = some x → x.path ≠ .svc) ∧ sameOff s t [pUPD, pMGT] ∧ sameMem s t) ∧
  (∀ s : State, pstate s pSVC ≠ stOFF →
    (∀ hs : Bool, Answers (.attach hs) s fun t =>
      get t SVC.SVST_VBUS = 1 ∧ get t SVC.SVST_HS = hs.toNat ∧ evt t pSVC 8 = true ∧
      sameRegs s t ([SVC.SVST_VBUS, SVC.SVST_HS] ++ evts pSVC) ∧ unlogged t = unlogged s) ∧
    (Answers .detach s fun t =>
      get t SVC.SVST_VBUS = 0 ∧ get t SVC.SVST_CONF = 0 ∧ pstate t pSVC = stIDLE ∧ evt t pSVC 9 = true ∧
      (∀ i < 8, ∀ x, session t i = some x → x.path ≠ .svc) ∧ sameOff s t [pSVC, pUPD, pMGT] ∧ sameMem s t) ∧
    (∀ on : Bool, flag s SVC.SVST_VBUS = true → Answers (.hostConfigured on) s fun t =>
      get t SVC.SVST_CONF = on.toNat ∧ pstate t pSVC = (if on then stRUN else stIDLE) ∧
      sameRegs s t (SVC.SVST_CONF :: sts pSVC) ∧ unlogged t = unlogged s))

/-- R355–R357, R363–R367, R370: the commands of page SEC, OWNCHG and SECRET_EXPIRY. -/
def Obligations.SecurityCommands : Prop :=
  (∀ (s e : State) (src : Src),
    let under (t : State) : Prop := t.sec.signing = true ∧ get t (hPOS pSEC) = 0 ∧ get t (hLIM pSEC) = 100 ∧ get t (hPCT pSEC) = 255
    let progress : List Fld := [hPOS pSEC, hLIM pSEC, hPCT pSEC]
    (Taken s src pSEC 0x40 [1#32] false e → Answers (.scmdInstall src) s fun t =>
      t.sec.op = some (.install (staged s 1 24)) ∧ t.sec.anchor = s.sec.anchor ∧ get t (hBUSY pSEC) = 1 ∧ sameRegs s t (hBUSY pSEC :: svcs) ∧
      sameMem s t) ∧
    (Taken s src pSEC 0x40 [2#32] true e → Answers (.scmdEndorse src true) s fun t =>
      t.sec.endorse = staged s 0 52 ∧ (s.sec.anchor ≠ [] → get t SEC.OSTAT_ENDRS = 1) ∧ under t ∧
      sameRegs s t ([SEC.OSTAT_OWNED, SEC.OSTAT_ENDRS, DEV.DSTAT_OWNED, SEC.AFPR_FP] ++ progress ++ svcs) ∧ sameMem s t) ∧
    (Taken s src pSEC 0x40 [3#32] true e → Answers (.scmdTransfer src true) s fun t =>
      t.sec.op = some (.transfer (staged s 2 24) (stg s 1)) ∧ get t (hBUSY pSEC) = 1 ∧ under t ∧
      (∀ i < 8, ∀ x, session s i = some x → x.held ≠ [] → srcSid src ≠ some i → session t i = none) ∧
      sameOff s t [pSEC, pUPD, pMGT, pSVC, pTKE, pTKW] ∧ sameMem s t) ∧
    (Taken s src pSEC 0x40 [4#32] false e → Answers (.scmdRelease src) s fun t =>
      t.sec.op = some .release ∧ get t (hBUSY pSEC) = 1 ∧ (∀ i < 8, srcSid src ≠ some i → session t i = none) ∧
      sameOff s t [pSEC, pUPD, pMGT, pSVC, pTKE, pTKW] ∧ sameMem s t) ∧
    (Taken s src pSEC 0x40 [5#32] false e → Answers (.scmdStream src) s fun t =>
      get t SEC.SGEN_GEN = (get s SEC.SGEN_GEN + 1) % 2 ^ 32 ∧ get t SEC.OSTAT_NOSS = 0 ∧ t.sec.secret.length = 12 ∧ t.sec.shown = srcSid src ∧
      evt t pSEC 11 = true ∧ sameOff s t [pSEC, pSTM, pMGT, pSVC, pTKE, pTKW] ∧ sameMem s t) ∧
    (∀ sid < 8, Taken s src pSEC 0x40 [wd (sid * 256 + 6)] false e → Answers (.scmdClose src sid) s fun t =>
      session t sid = none ∧ sameOff s t [pSEC, pUPD, pMGT, pSVC, pTKE, pTKW] ∧ sameMem s t) ∧
    (Taken s src pSEC 0x40 [7#32] false e → Answers (.scmdMkchal src) s fun t =>
      t.sec.chal = some (get t SEC.MKCH0_CH, get t SEC.MKCH1_CH) ∧ stg t 0 = get t SEC.MKCH0_CH ∧ stg t 1 = get t SEC.MKCH1_CH ∧
      sameRegs s t ([SEC.MKCH0_CH, SEC.MKCH1_CH, SEC.STG 0, SEC.STG 1] ++ svcs) ∧ sameMem s t) ∧
    (Taken s src pSEC 0x40 [8#32] true e → Answers (.scmdMkunlock src true) s fun t =>
      get t SEC.OSTAT_MKMD = 1 ∧ get t DEV.DSTAT_MAKER = 1 ∧ pstate t pDEV = stTEST ∧ t.sec.anchor = [] ∧ t.sec.endorse = [] ∧ t.sec.secret = [] ∧
      get t SEC.OSTAT_OWNED = 0 ∧ get t SEC.OSTAT_NOSS = 1 ∧ get t DOM.DID_ID = 0 ∧ t.dom.recPos = none ∧ t.twl.paired = false ∧ t.twl.key = [] ∧
      ∀ i < 8, session t i = none) ∧
    (Taken s src pSEC 0x40 [9#32] false e → Answers (.scmdRetrec src) s fun t =>
      under t ∧ t.sec.shown = none ∧ (stg t 0, stg t 1) = (get s DEV.SERHI_SER, get s DEV.SERLO_SER) ∧
      (stg t 2, stg t 3, stg t 8) = (get s MTR.EVCNT_CNT, get s SEC.OGEN_GEN, stg s 0) ∧ sameRegs s t ((List.range 128).map SEC.STG ++ progress ++ svcs) ∧ sameMem s t)) ∧
  (∀ s : State,
    (s.sec.op = none → exec .ownchg s = .next s) ∧
    (∀ op, s.sec.op = some op → Answers .ownchg s fun t =>
      t.sec.op = none ∧ get t (hBUSY pSEC) = 0 ∧ evt t pSEC 10 = true ∧
      (match op with
        | .install a => t.sec.anchor = a ∧ get t SEC.OGEN_GEN = get s SEC.OGEN_GEN
        | .transfer a g => t.sec.anchor = a ∧ get t SEC.OGEN_GEN = g % 2 ^ 32
        | .release => t.sec.anchor = [] ∧ t.sec.endorse = [] ∧ get t SEC.OGEN_GEN = get s SEC.OGEN_GEN) ∧
      get t SEC.OSTAT_OWNED = (if t.sec.anchor = [] then 0 else 1) ∧
      sameRegs s t ([hBUSY pSEC, SEC.OSTAT_OWNED, SEC.OSTAT_ENDRS, DEV.DSTAT_OWNED, SEC.AFPR_FP, SEC.OGEN_GEN] ++ evts pSEC) ∧ sameMem s t) ∧
    (exec .secretExpiry s = .next { s with sec := { s.sec with shown := none } }))

/-- R351–R353, R376–R381, R385, R399: PCMD RESTART, WATCHDOG, SENSOR_SAMPLE and the update. -/
def Obligations.ProcessorsAndUpdates : Prop :=
  let pages : List Nat := [pMGT, pUPD, pSEC, pSVC, pTKE, pTKW]
  let restarted (s t : State) (p : Nat) : Prop :=
    loader t p = 1 ∧ get t (MGT.PRST_ST p) = 1 ∧ get t (MGT.PRST_RSTC p) = (get s (MGT.PRST_RSTC p) + 1) % 16 ∧ evt t pMGT 10 = true ∧
    (∀ q < 4, q ≠ p → loader t q = loader s q) ∧ (p = 0 → ∀ i < 8, session t i = none) ∧ sameOff s t pages ∧ sameMem s t
  (∀ (s e : State) (src : Src), ∀ p < 4, Taken s src pMGT 0x40 [wd (p * 16 + 1)] false e → Answers (.pcmdRestart src p) s (restarted s · p)) ∧
  (∀ s : State, ∀ p < 4, loaderUp s p = true → Answers (.watchdog p) s (restarted s · p)) ∧
  (∀ (s : State) (temps : List Int) (rails : List Nat) (ve ie vw iw moist : Nat), mgpRuns s = true →
    Answers (.sensorSample temps rails ve ie vw iw moist) s fun t =>
      let lim := toSigned 16 (get s MGT.TWARN_T)
      (∀ i < 6, get t (MGT.TDIE_T i) = ofSigned 16 (temps.getD i 0)) ∧ (∀ i < 12, get t (MGT.VRAIL_MV i) = rails.getD i 0 % 65536) ∧
      (get t MGT.TKVE_V, get t MGT.TKVE_I, get t MGT.TKVW_V, get t MGT.TKVW_I) = (ve % 65536, ie % 65536, vw % 65536, iw % 65536) ∧
      get t MGT.MOIST_RH = moist % 65536 ∧
      (∀ i < 6, lim ≤ toSigned 16 (get t (MGT.TDIE_T i)) → t.mgt.tArmed = false ∧ (s.mgt.tArmed = true → evt t pMGT 8 = true)) ∧
      (get s MGT.MOISTH_RH ≤ moist % 65536 → t.mgt.mArmed = false ∧ (s.mgt.mArmed = true → evt t pMGT 9 = true)) ∧
      sameOff s t [pMGT] ∧ sameMem s t) ∧
  (∀ (s e : State) (src : Src),
    (∀ ulen < 2 ^ 21, Taken s src pUPD 0x40 [1#32, 0#32, wd ulen] false e → Answers (.ucmdOpen src ulen) s fun t =>
      get t UPD.USTAT_STAGE = 1 ∧ get t UPD.USTAT_HELD = 1 ∧ (∀ i, srcSid src = some i → get t UPD.USTAT_SID = i % 8) ∧ get t UPD.USTAT_ERR = 0 ∧
      get t UPD.ULEN_N = ulen ∧ get t (hLIM pUPD) = (ulen + 255) / 256 ∧ (0 < ulen → get t (hPOS pUPD) = 0) ∧ pstate t pUPD = stRUN ∧
      (∀ k < 256, ∀ g < 4096, get t (UPD.UWIN_D k g) = 0) ∧ sameOff s t [pUPD, pMGT, pSVC] ∧ sameMem s t) ∧
    (Taken s src pUPD 0x40 [2#32] false e → Answers (.ucmdCheck src) s fun t =>
      t.upd.checking = true ∧ get t (hBUSY pUPD) = 1 ∧ get t (hPCT pUPD) = 255 ∧
      sameRegs s t ([hBUSY pUPD, hPCT pUPD, hPOS pUPD, hLIM pUPD] ++ svcs) ∧ sameMem s t) ∧
    (∀ p < 4, ctType s = p → Taken s src pUPD 0x40 [3#32] false e → Answers (.ucmdInstall src) s fun t =>
      get t UPD.USTAT_STAGE = 3 ∧ loader t p = 2 ∧ get t (MGT.PRST_ST p) = 1 ∧ t.upd.target = some p ∧ t.upd.cont = bufWords s ∧
      tget t.flash.regions p true = false ∧ (p = 0 → ∀ i < 8, session t i = none) ∧ (p ≠ 0 → get t (hLIM pUPD) = (get s UPD.ULEN_N + 1023) / 1024 % 2 ^ 24) ∧
      sameOff s t pages ∧ sameMem s t) ∧
    (Taken s src pUPD 0x40 [4#32] false e → Answers (.ucmdClose src) s fun t =>
      get t UPD.USTAT_STAGE = 0 ∧ get t UPD.USTAT_HELD = 0 ∧ (∀ k < 256, ∀ g < 4096, get t (UPD.UWIN_D k g) = 0) ∧ t.upd.checking = false ∧
      (pstate s pUPD = stRUN → pstate t pUPD = stIDLE) ∧ sameOff s t [pUPD, pMGT, pSVC] ∧ sameMem s t)) ∧
  (∀ (s : State) (f : CheckFacts), s.upd.checking = true →
    let w := bufWords s
    let err := if ctFormat s = false then 1 else if makerOk w f = false then 2 else if plainOf s w f = none then 3 else if digOk s w f = false then 4
      else if (ctOcs s = true ∧ cosigOk s w f = false) ∨ (ocsNeeded s = true ∧ ctOcs s = false) then 5
      else if ctApr s = true ∧ aprOk w f = false then 6
      else if levelsOk s = false then 7 else if sealPolicy s = false then 8 else 0
    Answers (.checkDone f) s fun t =>
      get t UPD.USTAT_ERR = err ∧ get t (hBUSY pUPD) = 0 ∧ t.upd.checking = false ∧
      (err = 0 → get t UPD.USTAT_STAGE = 2 ∧ get t UPD.UVER_VER = ctVer s ∧ evt t pUPD 8 = true) ∧
      (err ≠ 0 → get t UPD.USTAT_STAGE = get s UPD.USTAT_STAGE ∧ evt t pUPD 9 = true ∧
        get t (hLIM pUPD) = (get s UPD.ULEN_N + 255) / 256 % 2 ^ 24 ∧ get t (hPOS pUPD) = segsDone s % 2 ^ 24 ∧
        sameRegs s t ([UPD.USTAT_ERR, hBUSY pUPD, hLIM pUPD, hPOS pUPD, hPCT pUPD] ++ evts pUPD)) ∧
      (err = 0 → sameRegs s t ([UPD.USTAT_ERR, UPD.USTAT_STAGE, UPD.UVER_VER, hBUSY pUPD] ++ evts pUPD)) ∧ sameMem s t) ∧
  (∀ s : State, ∀ p < 4, (p = 1 → domainOn s 2 = true) →
    (loader s p = 2 → Answers (.regionErased p) s fun t =>
      loader t p = 3 ∧ sameRegs s t [UPD.ILVL_LST p, MGT.PRST_ST p] ∧ unlogged t = unlogged s) ∧
    (loader s p = 3 → Answers (.containerWritten p) s fun t =>
      loader t p = 4 ∧ tget t.flash.regions p true = true ∧ tget t.flash.images p [] = s.upd.cont ∧
      sameRegs s t ([UPD.ILVL_LST p, MGT.PRST_ST p, hPOS pUPD, hPCT pUPD] ++ evts pUPD) ∧ sameMem s t) ∧
    (loader s p = 4 →
      (Answers (.readback p true) s fun t => loader t p = 1 ∧ sameRegs s t [UPD.ILVL_LST p, MGT.PRST_ST p] ∧ unlogged t = unlogged s) ∧
      (s.upd.tries < 2 → Answers (.readback p false) s fun t =>
        loader t p = 2 ∧ t.upd.tries = 2 ∧ tget t.flash.regions p true = false ∧ sameRegs s t [UPD.ILVL_LST p, MGT.PRST_ST p] ∧ sameMem s t) ∧
      (2 ≤ s.upd.tries → Answers (.readback p false) s fun t =>
        loader t p = 5 ∧ get t UPD.ULAST_PROC = p ∧ get t UPD.ULAST_ERR = 9 ∧ t.upd.target = none ∧ tget t.flash.regions p true = false ∧
        (p ≠ 0 → mgpRuns s = true → evt t pUPD 11 = true) ∧ sameOff s t [pMGT, pUPD] ∧ sameMem s t)) ∧
    (loader s p = 1 → ∀ (f : BootFacts) (dig : List Word),
      (bootOk s p f = true → s.pwr.starting = true → (∀ q < 4, q ≠ p → loader s q ≠ 1) → p = 0 ∨ mgpRuns s = true →
        Answers (.boot p f dig) s fun t => t.pwr.starting = false) ∧
      (s.pwr.starting = false ∨ (∃ q < 4, q ≠ p ∧ loader s q = 1) →
        (bootOk s p f = true → Answers (.boot p f dig) s fun t =>
          loader t p = 0 ∧ get t (MGT.PRST_ST p) = 2 ∧ t.pwr.starting = s.pwr.starting ∧
          (∀ w, regionHeld s p = some w → get t (UPD.IVER_VER p) = (w.getD 1 0#32).toNat ∧
            get t (UPD.ILVL_PLV p) = wbits (w.getD 2 0#32) 31 24 ∧ get t (UPD.ILVL_RLV p) = wbits (w.getD 2 0#32) 23 16) ∧
          (s.upd.target = some p → get t UPD.ULAST_PROC = p ∧ get t UPD.ULAST_ERR = 0 ∧ (mgpRuns s = true ∨ p = 0 → evt t pUPD 10 = true)) ∧
          (p = 1 → s.mtr.loadDue = false → ∀ k < 12, get t (MTR.SWDIG k) = ((bootDig s 1 dig).getD k 0#32).toNat) ∧
          (2 ≤ p → s.upd.target = none →
            sameRegs s t [UPD.ILVL_LST p, MGT.PRST_ST p, UPD.IVER_VER p, UPD.ILVL_PLV p, UPD.ILVL_RLV p] ∧ unlogged t = unlogged s)) ∧
        (bootOk s p f = false → Answers (.boot p f dig) s fun t =>
          loader t p = 5 ∧ get t (MGT.PRST_ST p) = 1 ∧ (s.upd.target = some p → get t UPD.ULAST_ERR ≠ 0) ∧
          ((p = 1 → s.mtr.loadDue = false) → sameOff s t [pMGT, pUPD] ∧ sameMem s t)))))

/-- R388–R392, R404, R407: SUPPLY_SAMPLE, LEVEL_STEP_UP, XCHG, PORTCHG, INRUSH_END, PTOC, PT_PROBE and SUDONE. -/
def Obligations.SupplyAndPorts : Prop :=
  (∀ (s : State) (v i : Nat),
    let l := (v :: s.pwr.vin).take 4
    let mean (x : Nat) : Prop := l.sum < 10 * x * l.length
    let low2 := mean (get s PWR.SAGL_SAG2)
    let low1 := mean (get s PWR.SAGL_SAG1)
    Answers (.supplySample v i) s fun t =>
      get t PWR.VIN_V = v % 65536 ∧ get t PWR.VIN_I = i % 65536 ∧ t.pwr = { s.pwr with vin := l } ∧
      (s.pwr.lock = false → low2 → get s PWR.SLVL_LEVEL < 2 →
        get t PWR.SLVL_LEVEL = 2 ∧ get t PWR.SAGCNT_N2 = min (get s PWR.SAGCNT_N2 + 1) 65535 ∧ evt t pPWR 9 = true) ∧
      (s.pwr.lock = false → ¬ low2 → low1 → get s PWR.SLVL_LEVEL = 0 →
        get t PWR.SLVL_LEVEL = 1 ∧ get t PWR.SAGCNT_N1 = min (get s PWR.SAGCNT_N1 + 1) 65535 ∧ evt t pPWR 8 = true) ∧
      (s.pwr.lock = true → sameRegs s t [PWR.VIN_V, PWR.VIN_I]) ∧
      (¬ low2 → ¬ low1 → sameBut s t [PWR.VIN_V, PWR.VIN_I] [pOPT, pMGT]) ∧
      sameBut s t ([PWR.VIN_V, PWR.VIN_I, PWR.SLVL_LEVEL, PWR.SAGCNT_N1, PWR.SAGCNT_N2] ++ evts pPWR) [pOPT] ∧ sameMem s t) ∧
  (∀ s : State, s.pwr.lock = false →
    (∀ k ∈ [1, 2], get s PWR.SLVL_LEVEL = k →
      s.pwr.vin.length * (10 * get s (if k = 2 then PWR.SAGL_SAG2 else PWR.SAGL_SAG1) + 100) ≤ s.pwr.vin.sum → Answers .levelStepUp s fun t =>
        get t PWR.SLVL_LEVEL = k - 1 ∧ (k = 1 → evt t pPWR 10 = true) ∧ (k = 2 → sameBut s t [PWR.SLVL_LEVEL] [pOPT, pMGT]) ∧
        sameBut s t (PWR.SLVL_LEVEL :: evts pPWR) [pOPT] ∧ t.pwr = s.pwr ∧ sameMem s t)) ∧
  (∀ s : State, get s PWR.SLVL_LEVEL < 3 → get s CLK.XFORCE_MIN < 3 →
    let d := max (get s PWR.SLVL_LEVEL) (get s CLK.XFORCE_MIN)
    (get s CLK.XSTAT_XDIV = d → exec .xchg s = .next s) ∧
    (get s CLK.XSTAT_XDIV ≠ d → Answers .xchg s fun t =>
      get t CLK.XSTAT_XDIV = d ∧ get t CLK.XCNT_N = min (get s CLK.XCNT_N + 1) 65535 ∧ evt t pCLK 8 = true ∧
      sameRegs s t ([CLK.XSTAT_XDIV, CLK.XCNT_N] ++ evts pCLK) ∧ unlogged t = unlogged s)) ∧
  (∀ (s : State) (above : Bool), ∀ p < 2,
    (flag s (PWR.PORTST_PRES p) ≠ above → Answers (.portchg p above) s fun t =>
      flag t (PWR.PORTST_PRES p) = above ∧ flag t (PWR.PORTST_INR p) = above ∧ (above = false → get t (PWR.PORTST_ILIM p) = 0) ∧
      evt t pPWR 12 = true ∧ (get t PWR.PTST_DIR = 0 ∨ get t PWR.PTST_DIR = ptDir t) ∧
      sameRegs s t ([PWR.PORTST_PRES p, PWR.PORTST_INR p, PWR.PORTST_ILIM p, PWR.PTST_DIR, PWR.PTST_DETOK] ++ evts pPWR) ∧
      unlogged t = unlogged s) ∧
    (flag s (PWR.PORTST_PRES p) = above → exec (.portchg p above) s = .next s) ∧
    (exec (.inrushEnd p) s = .next (put s (PWR.PORTST_INR p) 0))) ∧
  (∀ s : State, get s PWR.PTST_DIR ≠ 0 → Answers .ptoc s fun t =>
    get t PWR.PTST_DIR = 0 ∧ get t PWR.PTST_DETOK = 0 ∧ get t PWR.PTST_OC = 1 ∧ evt t pPWR 11 = true ∧
    sameRegs s t ([PWR.PTST_DIR, PWR.PTST_DETOK, PWR.PTST_OC] ++ evts pPWR) ∧ unlogged t = unlogged s) ∧
  (∀ (s : State) (ohms : Nat), flag s PWR.PTCFG_EN = true → s.pwr.lock = false → get s PWR.PTST_DIR = 0 →
    flag s (PWR.PORTST_PRES 0) ≠ flag s (PWR.PORTST_PRES 1) →
    let d := if flag s (PWR.PORTST_PRES 0) then 1 else 2
    get s PWR.PTCFG_SRC ≠ 3 - d → Answers (.ptProbe ohms) s fun t =>
      (23750 ≤ ohms → ohms ≤ 26250 → get t PWR.PTST_DIR = d ∧ get t PWR.PTST_DETOK = 1 ∧ get t PWR.PTST_OC = 0) ∧
      (ohms < 23750 ∨ 26250 < ohms → get t PWR.PTST_DIR = 0 ∧ get t PWR.PTST_DETOK = 0) ∧
      sameRegs s t [PWR.PTST_DIR, PWR.PTST_DETOK, PWR.PTST_OC] ∧ unlogged t = unlogged s) ∧
  (∀ (s : State) (ms : Nat), Answers (.sudone ms) s fun t =>
    get t PWR.SUST_SUT = ms % 65536 ∧ evt t pPWR 13 = true ∧ sameRegs s t (PWR.SUST_SUT :: evts pPWR) ∧ unlogged t = unlogged s)

/-- R166, R249, R330, R355, R394–R404: UVLO, POWER_ON, RST_N, PLL_LOSS, RAIL, PDEN_WRITE, DOMAIN_POWER_GOOD, SUCMD, SUCMD_SAVE_DONE and REARM. -/
def Obligations.ResetsAndDomains : Prop :=
  let started (s t : State) (cause : Nat) : Prop :=
    get t PWR.LASTR_CAUSE = cause ∧ get t PWR.LASTR_NRST = (get s PWR.LASTR_NRST + 1) % 65536 ∧ t.pwr.lock = false ∧ t.pwr.starting = true ∧
    get t PWR.PDST_PG = (get t PWR.PDEN_EN * 4 + 3) % 2 ^ 17 ∧ role t = (if s.twl.strap = 0 then rSINGLE else rPAIRING) ∧ t.sessions = [] ∧
    (∀ p < 4, (p = 1 → bit (get t PWR.PDEN_EN) 0 = true) →
      loader t p = (if tget s.flash.regions p true then 1 else 5) ∧ get t (MGT.PRST_ST p) = 1) ∧
    (bit (get t PWR.PDEN_EN) 0 = false → loader t 1 = 0 ∧ get t (MGT.PRST_ST 1) = 0) ∧ (∀ a, memGet t a = 0#8) ∧
    t.flash = s.flash ∧ t.pending = s.pending
  let kept (s t : State) : Prop := get t PWR.PDEN_EN = get s PWR.PDEN_EN ∧ get t PWR.AFEMD_ECO = get s PWR.AFEMD_ECO ∧
    get t SEC.OSTAT_MKMD = get s SEC.OSTAT_MKMD ∧ t.sec.chal = s.sec.chal
  (∀ s : State,
    (s.pwr.lock = false → s.pwr.vin ≠ [] → s.pwr.vin.sum < 3800 * s.pwr.vin.length → Answers .uvlo s fun t =>
      t.pwr.lock = true ∧ t.pwr.pgN = false ∧ get t PWR.PDST_PG = 0 ∧ t.sessions = [] ∧ (∀ a, memGet t a = 0#8) ∧
      (twin s = true → Told s t 2 6 (8 * 2 ^ 40)) ∧ t.flash = s.flash ∧ t.sec.anchor = s.sec.anchor ∧ t.mtr.record = s.mtr.record ∧
      t.pending = s.pending) ∧
    (∀ lid good : Bool, Answers (.powerOn ⟨lid, good⟩) s fun t =>
      started s t (if s.pwr.lock then 2 else 0) ∧ ((∃ k < 24, get s (SEC.DPUB k) ≠ 0) → ∀ k < 24, get t (SEC.DPUB k) = get s (SEC.DPUB k)) ∧
      ((∃ k < 24, get s (MTR.MPUB k) ≠ 0) → ∀ k < 24, get t (MTR.MPUB k) = get s (MTR.MPUB k)) ∧ get t SEC.OSTAT_MKMD = 0 ∧ t.sec.chal = none ∧ get t PWR.PDEN_EN = 0x7FFF ∧ get t MTR.MSTAT_LIDO = lid.toNat ∧
      get t MTR.EVCNT_CNT = (if lid then min (get s MTR.EVCNT_CNT + 1) (2 ^ 32 - 1) else get s MTR.EVCNT_CNT)) ∧
    (s.pwr.lock = false →
      (Answers .rstN s fun t => started s t 1 ∧ kept s t) ∧
      (∀ p < 3, Answers (.pllLoss p) s fun t => started s t 3 ∧ kept s t) ∧
      (∀ i < 3, Answers (.rail i) s fun t => started s t 4 ∧ kept s t)) ∧
    (s.pwr.lock = true → exec .rstN s = .next s) ∧
    (∀ i < 12, 3 ≤ i → Answers (.rail i) s fun t =>
      t.pwr.pgN = false ∧ (i = 3 ∨ i = 7 → sameRegs s t [] ∧ unlogged { t with pwr := s.pwr } = unlogged s) ∧
      (i = 4 ∨ i = 5 → domainOn s 13 = true → pstate s pCNV ≠ stOFF → pstate s pCNV ≠ stSEALED →
        pstate t pCNV = stFAULT ∧ sameRegs s t (sts pCNV) ∧ sameMem s t) ∧
      (i = 6 → ∀ p < 2, domainOn s (14 + p) = true → pstate s (pTKE + p) ≠ stOFF → pstate t (pTKE + p) = stFAULT) ∧
      (8 ≤ i → i ≤ 10 → ∀ n < 48, domainOn s (3 + n / 8) = true → bstate s n ≠ stOFF → bstate t n = stFAULT) ∧
      (i = 11 → domainOn s 9 = true → pstate s pEXC ≠ stOFF → pstate t pEXC = stFAULT))) ∧
  (∀ (s e : State) (src : Src),
    (∀ w : Word, Taken s src pPWR 0x44 [w] false e → Answers (.pdenWrite src w) s fun t =>
      get t PWR.PDEN_EN = wbits w 16 2 ∧
      (∀ d < 17, 2 ≤ d →
        let off : Bool := bit (get s PWR.PDEN_EN) (d - 2) && !bit (wbits w 16 2) (d - 2)
        domainOn t d = (domainOn s d && !off) ∧ (off = true → ∀ p ∈ domainPages d, pstate t p = stOFF)) ∧
      (wbits w 16 2 = get s PWR.PDEN_EN → sameRegs s t ([PWR.PTST_DIR, PWR.PTST_DETOK] ++ svcs) ∧ sameMem s t)) ∧
    (Taken s src pPWR 0x40 [1#32] false e → Answers (.sucmdSave src) s fun t =>
      t.pwr.suOp = true ∧ get t (hBUSY pPWR) = 1 ∧ get t (hPCT pPWR) = 0 ∧ get t (hPOS pPWR) = 0 ∧ get t (hLIM pPWR) ≠ 0 ∧ t.flash = s.flash ∧
      sameRegs s t ([hBUSY pPWR, hPCT pPWR, hPOS pPWR, hLIM pPWR, PWR.PTST_DIR, PWR.PTST_DETOK] ++ svcs) ∧ sameMem s t) ∧
    (Taken s src pPWR 0x40 [2#32] false e → Answers (.sucmdClear src) s fun t =>
      t.flash = { s.flash with config := none, table := none } ∧ get t PWR.SUST_VALID = 0 ∧
      sameRegs s t ([PWR.SUST_VALID, PWR.PTST_DIR, PWR.PTST_DETOK] ++ svcs) ∧ sameMem s t)) ∧
  (∀ s : State,
    (∀ d < 17, 2 ≤ d → bit (get s PWR.PDEN_EN) (d - 2) = true → domainOn s d = false → s.pwr.lock = false → (d = 2 → s.mtr.record = none ∨ tget s.flash.regions 1 true = true) →
      Answers (.domainPowerGood d) s fun t =>
      domainOn t d = true ∧ (∀ k < 17, k ≠ d → domainOn t k = domainOn s k) ∧ (d = 2 → tget s.flash.regions 1 true = true → loader t 1 = 1) ∧ (d ≠ 13 → d ≠ 12 → d ≠ 11 → sameMem s t)) ∧
    (s.pwr.suOp = true → Answers .sucmdSaveDone s fun t =>
      t.flash = { s.flash with config := some (s.regs.filter fun x => configCode x.1), table := savedTable s } ∧ t.pwr.suOp = false ∧
      get t PWR.SUST_VALID = 1 ∧ get t (hBUSY pPWR) = 0 ∧ get t (hPOS pPWR) = get s (hLIM pPWR) ∧ get t (hPCT pPWR) = 100 ∧
      evt t pPWR 3 = true ∧ sameRegs s t ([PWR.SUST_VALID, hBUSY pPWR, hPOS pPWR, hPCT pPWR] ++ evts pPWR) ∧ sameMem s t) ∧
    (s.sch.rearm = false → exec .rearm s = .next s) ∧
    (s.sch.rearm = true → pstate s pSCH = stIDLE → get s TSU.TSTAT_SRC ≠ 0 → s.tsu.stepDone = true → get s DOM.DROLE_AUTH = 1 → commitErrs s true = [] →
      commitState s = false → Answers .rearm s fun t =>
        t.sch.rearm = false ∧ flag t SCH.SSTAT_SHVAL = true ∧ pstate t pSCH = stARMED ∧
        ∃ a, t.sch.rearmAt = some a ∧ a % (10000000 * 65536) = 0 ∧ now16 s + 1000000 * 65536 ≤ a ∧ a < now16 s + 11000000 * 65536))
end

