-- ==== Sys2Proof/Laws/Tbl.lean ====
section
/-! SUPPORT. Sparse tables: a read after a write, and the canonical form that every write keeps. -/

namespace Sys2Proof.Machine

variable {V : Type}

@[simp] theorem tget_nil (k : Nat) (d : V) : tget [] k d = d := rfl

/-- An erased key reads as unlisted. -/
theorem tget_terase_same (t : List (Nat × V)) (k : Nat) (d : V) : tget (terase k t) k d = d := by
  induction t with
  | nil => rfl
  | cons e t ih =>
    obtain ⟨k', v⟩ := e
    by_cases h : k = k'
    · simpa [terase, h] using h ▸ ih
    · simp [terase, h, tget, ih]

/-- Erasing a key leaves every other key alone. -/
theorem tget_terase_ne (t : List (Nat × V)) {k j : Nat} (d : V) (h : j ≠ k) : tget (terase k t) j d = tget t j d := by
  induction t with
  | nil => rfl
  | cons e t ih =>
    obtain ⟨k', v⟩ := e
    by_cases hk : k = k'
    · subst hk
      simp [terase, tget, h, ih]
    · by_cases hj : j = k' <;> simp [terase, hk, tget, hj, ih]

/-- An inserted key reads as inserted, where it was not listed. -/
theorem tget_tins_terase_same (t : List (Nat × V)) (k : Nat) (v d : V) : tget (tins k v (terase k t)) k d = v := by
  induction t with
  | nil => simp [terase, tins, tget]
  | cons e t ih =>
    obtain ⟨k', w⟩ := e
    by_cases hk : k = k'
    · simpa [terase, hk] using hk ▸ ih
    · by_cases hl : k < k' <;> simp [terase, hk, tins, hl, tget, ih]

/-- Inserting a key leaves every other key alone. -/
theorem tget_tins_ne (t : List (Nat × V)) {k j : Nat} (v d : V) (h : j ≠ k) : tget (tins k v t) j d = tget t j d := by
  induction t with
  | nil => simp [tins, tget, h]
  | cons e t ih =>
    obtain ⟨k', w⟩ := e
    by_cases hl : k < k'
    · simp [tins, hl, tget, h]
    · by_cases hj : j = k' <;> simp [tins, hl, tget, hj, ih]

/-- A read after a write of the same key. -/
@[simp] theorem tget_tset_same [DecidableEq V] (t : List (Nat × V)) (k : Nat) (v d : V) : tget (tset t k v d) k d = v := by
  by_cases h : v = d
  · simp [tset, h, tget_terase_same]
  · simp [tset, h, tget_tins_terase_same]

/-- A read after a write of another key. -/
theorem tget_tset_ne [DecidableEq V] (t : List (Nat × V)) {k j : Nat} (v d e : V) (h : j ≠ k) :
    tget (tset t k v d) j e = tget t j e := by
  by_cases hv : v = d
  · simp [tset, hv, tget_terase_ne _ _ h]
  · simp [tset, hv, tget_tins_ne _ _ _ h, tget_terase_ne _ _ h]

/-! ### Keys strictly rising -/

/-- Every key of a table lies above a bound. -/
def above (b : Nat) (t : List (Nat × V)) : Bool := t.all fun e => decide (b < e.1)

theorem rising_cons (k : Nat) (v : V) (t : List (Nat × V)) : rising ((k, v) :: t) = true ↔ above k t = true ∧ rising t = true := by
  induction t generalizing k v with
  | nil => simp [rising, above]
  | cons e t ih =>
    obtain ⟨k', w⟩ := e
    simp only [rising, above, Bool.and_eq_true, decide_eq_true_eq, List.all_cons] at *
    constructor
    · rintro ⟨h1, h2⟩
      refine ⟨⟨h1, ?_⟩, h2⟩
      have := (ih k' w).1 h2
      simp only [List.all_eq_true, decide_eq_true_eq] at this ⊢
      exact fun x hx => Nat.lt_trans h1 (this.1 x hx)
    · rintro ⟨⟨h1, -⟩, h2⟩
      exact ⟨h1, h2⟩

theorem above_terase (b k : Nat) (t : List (Nat × V)) (h : above b t = true) : above b (terase k t) = true := by
  induction t with
  | nil => rfl
  | cons e t ih =>
    obtain ⟨k', v⟩ := e
    simp only [above, List.all_cons, Bool.and_eq_true] at h ih ⊢
    by_cases hk : k = k'
    · simp only [terase, hk, if_true]
      exact hk ▸ ih h.2
    · simp only [terase, hk, if_false, List.all_cons, Bool.and_eq_true]
      exact ⟨h.1, ih h.2⟩

theorem above_tins (b k : Nat) (v : V) (t : List (Nat × V)) (hk : b < k) (h : above b t = true) : above b (tins k v t) = true := by
  induction t with
  | nil => simp [tins, above, hk]
  | cons e t ih =>
    obtain ⟨k', w⟩ := e
    simp only [above, List.all_cons, Bool.and_eq_true, decide_eq_true_eq] at h ih
    by_cases hl : k < k'
    · simp [tins, hl, above, hk, h.1, h.2]
    · simp only [tins, hl, if_false, above, List.all_cons, Bool.and_eq_true, decide_eq_true_eq]
      exact ⟨h.1, ih h.2⟩

/-- Erasing keeps keys rising. -/
theorem rising_terase (k : Nat) (t : List (Nat × V)) (h : rising t = true) : rising (terase k t) = true := by
  induction t with
  | nil => rfl
  | cons e t ih =>
    obtain ⟨k', v⟩ := e
    rw [rising_cons] at h
    by_cases hk : k = k'
    · simp only [terase, hk, if_true]
      exact hk ▸ ih h.2
    · simp only [terase, hk, if_false]
      exact (rising_cons ..).2 ⟨above_terase _ _ _ h.1, ih h.2⟩

/-- Inserting a key that is not listed keeps keys rising. -/
theorem rising_tins (k : Nat) (v : V) (t : List (Nat × V)) (h : rising t = true) (hn : ∀ e ∈ t, e.1 ≠ k) :
    rising (tins k v t) = true := by
  induction t with
  | nil => rfl
  | cons e t ih =>
    obtain ⟨k', w⟩ := e
    by_cases hl : k < k'
    · simp [tins, hl, rising, h]
    · have hne : k' ≠ k := hn (k', w) (List.mem_cons_self ..)
      rw [rising_cons] at h
      simp only [tins, hl, if_false]
      exact (rising_cons ..).2 ⟨above_tins _ _ _ _ (by omega) h.1, ih h.2 fun x hx => hn x (List.mem_cons_of_mem _ hx)⟩

/-- An erased key is not listed. -/
theorem not_mem_terase (k : Nat) (t : List (Nat × V)) : ∀ e ∈ terase k t, e.1 ≠ k := by
  induction t with
  | nil => simp [terase]
  | cons e t ih =>
    obtain ⟨k', v⟩ := e
    by_cases hk : k = k'
    · subst hk
      simp only [terase, if_true]
      exact ih
    · intro x hx
      simp only [terase, hk, if_false, List.mem_cons] at hx
      rcases hx with rfl | hx
      · exact fun h => hk h.symm
      · exact ih x hx

/-- A write keeps keys rising. -/
theorem rising_tset [DecidableEq V] (t : List (Nat × V)) (k : Nat) (v d : V) (h : rising t = true) :
    rising (tset t k v d) = true := by
  by_cases hv : v = d
  · simp [tset, hv, rising_terase _ _ h]
  · simpa [tset, hv] using rising_tins k v _ (rising_terase k t h) (not_mem_terase k t)

/-- Keeping some of the entries keeps keys rising. -/
theorem rising_filter (p : Nat × V → Bool) (t : List (Nat × V)) (h : rising t = true) : rising (t.filter p) = true := by
  induction t with
  | nil => rfl
  | cons e t ih =>
    obtain ⟨k, v⟩ := e
    rw [rising_cons] at h
    by_cases hp : p (k, v) = true
    · simp only [List.filter_cons, hp, if_true]
      refine (rising_cons ..).2 ⟨?_, ih h.2⟩
      simp only [above, List.all_eq_true, decide_eq_true_eq] at h ⊢
      exact fun x hx => h.1 x (List.mem_filter.1 hx).1
    · simp only [List.filter_cons, hp]
      exact ih h.2

theorem mem_tins {k : Nat} {v : V} {t : List (Nat × V)} {e : Nat × V} (h : e ∈ tins k v t) : e = (k, v) ∨ e ∈ t := by
  induction t with
  | nil => simpa [tins] using h
  | cons x t ih =>
    obtain ⟨k', w⟩ := x
    by_cases hl : k < k'
    · simpa [tins, hl] using h
    · simp only [tins, hl, if_false, List.mem_cons] at h ⊢
      rcases h with h | h
      · exact .inr (.inl h)
      · rcases ih h with h | h
        · exact .inl h
        · exact .inr (.inr h)

theorem mem_terase {k : Nat} {t : List (Nat × V)} {e : Nat × V} (h : e ∈ terase k t) : e ∈ t := by
  induction t with
  | nil => exact h
  | cons x t ih =>
    obtain ⟨k', w⟩ := x
    by_cases hk : k = k'
    · simp only [terase, hk, if_true] at h
      exact List.mem_cons_of_mem _ (ih (hk ▸ h))
    · simp only [terase, hk, if_false, List.mem_cons] at h ⊢
      exact h.imp_right ih

/-- A write lists no entry equal to what an unlisted key reads as. -/
theorem tset_no_default [DecidableEq V] (t : List (Nat × V)) (k : Nat) (v d : V) (h : ∀ e ∈ t, e.2 ≠ d) :
    ∀ e ∈ tset t k v d, e.2 ≠ d := by
  intro e he
  by_cases hv : v = d
  · simp only [tset, hv, if_true] at he
    exact h e (mem_terase he)
  · simp only [tset, hv, if_false] at he
    rcases mem_tins he with rfl | he
    · exact hv
    · exact h e (mem_terase he)

end Sys2Proof.Machine
end

