-- ==== Sys2Proof/Laws/State.lean ====
section
/-! SUPPORT. The state's record: what each named update leaves alone, field by field and instance by instance, and what it writes. -/

namespace Sys2Proof.Machine

variable (s : State)

/-! ### put -/

@[simp] theorem put_cyc (f : Fld) (v : Nat) : (put s f v).cyc = s.cyc := rfl
@[simp] theorem put_time (f : Fld) (v : Nat) : (put s f v).time = s.time := rfl
@[simp] theorem put_fresh (f : Fld) (v : Nat) : (put s f v).fresh = s.fresh := rfl
@[simp] theorem put_sessions (f : Fld) (v : Nat) : (put s f v).sessions = s.sessions := rfl
@[simp] theorem put_out (f : Fld) (v : Nat) : (put s f v).out = s.out := rfl
@[simp] theorem put_sch (f : Fld) (v : Nat) : (put s f v).sch = s.sch := rfl
@[simp] theorem put_axs (f : Fld) (v : Nat) : (put s f v).axs = s.axs := rfl
@[simp] theorem put_dieT (f : Fld) (v : Nat) : (put s f v).dieT = s.dieT := rfl
@[simp] theorem put_banks (f : Fld) (v : Nat) : (put s f v).banks = s.banks := rfl
@[simp] theorem put_chans (f : Fld) (v : Nat) : (put s f v).chans = s.chans := rfl
@[simp] theorem put_chains (f : Fld) (v : Nat) : (put s f v).chains = s.chains := rfl
@[simp] theorem put_ports (f : Fld) (v : Nat) : (put s f v).ports = s.ports := rfl
@[simp] theorem put_boostUp (f : Fld) (v : Nat) : (put s f v).boostUp = s.boostUp := rfl
@[simp] theorem put_vb (f : Fld) (v : Nat) : (put s f v).vb = s.vb := rfl
@[simp] theorem put_optK (f : Fld) (v : Nat) : (put s f v).optK = s.optK := rfl
@[simp] theorem put_optM (f : Fld) (v : Nat) : (put s f v).optM = s.optM := rfl
@[simp] theorem put_mtr (f : Fld) (v : Nat) : (put s f v).mtr = s.mtr := rfl
@[simp] theorem put_ctxs (f : Fld) (v : Nat) : (put s f v).ctxs = s.ctxs := rfl
@[simp] theorem put_queues (f : Fld) (v : Nat) : (put s f v).queues = s.queues := rfl
@[simp] theorem put_notices (f : Fld) (v : Nat) : (put s f v).notices = s.notices := rfl
@[simp] theorem put_flights (f : Fld) (v : Nat) : (put s f v).flights = s.flights := rfl
@[simp] theorem put_engines (f : Fld) (v : Nat) : (put s f v).engines = s.engines := rfl
@[simp] theorem put_jobs (f : Fld) (v : Nat) : (put s f v).jobs = s.jobs := rfl
@[simp] theorem put_cnv (f : Fld) (v : Nat) : (put s f v).cnv = s.cnv := rfl
@[simp] theorem put_tsu (f : Fld) (v : Nat) : (put s f v).tsu = s.tsu := rfl
@[simp] theorem put_links (f : Fld) (v : Nat) : (put s f v).links = s.links := rfl
@[simp] theorem put_dom (f : Fld) (v : Nat) : (put s f v).dom = s.dom := rfl
@[simp] theorem put_twl (f : Fld) (v : Nat) : (put s f v).twl = s.twl := rfl
@[simp] theorem put_log (f : Fld) (v : Nat) : (put s f v).log = s.log := rfl
@[simp] theorem put_mgt (f : Fld) (v : Nat) : (put s f v).mgt = s.mgt := rfl
@[simp] theorem put_sec (f : Fld) (v : Nat) : (put s f v).sec = s.sec := rfl
@[simp] theorem put_upd (f : Fld) (v : Nat) : (put s f v).upd = s.upd := rfl
@[simp] theorem put_flash (f : Fld) (v : Nat) : (put s f v).flash = s.flash := rfl
@[simp] theorem put_pwr (f : Fld) (v : Nat) : (put s f v).pwr = s.pwr := rfl
@[simp] theorem put_pending (f : Fld) (v : Nat) : (put s f v).pending = s.pending := rfl

/-! ### setBank -/

@[simp] theorem setBank_regs (n : Nat) (v : Bank) : (setBank s n v).regs = s.regs := rfl
@[simp] theorem setBank_cyc (n : Nat) (v : Bank) : (setBank s n v).cyc = s.cyc := rfl
@[simp] theorem setBank_time (n : Nat) (v : Bank) : (setBank s n v).time = s.time := rfl
@[simp] theorem setBank_fresh (n : Nat) (v : Bank) : (setBank s n v).fresh = s.fresh := rfl
@[simp] theorem setBank_sessions (n : Nat) (v : Bank) : (setBank s n v).sessions = s.sessions := rfl
@[simp] theorem setBank_out (n : Nat) (v : Bank) : (setBank s n v).out = s.out := rfl
@[simp] theorem setBank_sch (n : Nat) (v : Bank) : (setBank s n v).sch = s.sch := rfl
@[simp] theorem setBank_axs (n : Nat) (v : Bank) : (setBank s n v).axs = s.axs := rfl
@[simp] theorem setBank_dieT (n : Nat) (v : Bank) : (setBank s n v).dieT = s.dieT := rfl
@[simp] theorem setBank_chans (n : Nat) (v : Bank) : (setBank s n v).chans = s.chans := rfl
@[simp] theorem setBank_chains (n : Nat) (v : Bank) : (setBank s n v).chains = s.chains := rfl
@[simp] theorem setBank_ports (n : Nat) (v : Bank) : (setBank s n v).ports = s.ports := rfl
@[simp] theorem setBank_boostUp (n : Nat) (v : Bank) : (setBank s n v).boostUp = s.boostUp := rfl
@[simp] theorem setBank_vb (n : Nat) (v : Bank) : (setBank s n v).vb = s.vb := rfl
@[simp] theorem setBank_optK (n : Nat) (v : Bank) : (setBank s n v).optK = s.optK := rfl
@[simp] theorem setBank_optM (n : Nat) (v : Bank) : (setBank s n v).optM = s.optM := rfl
@[simp] theorem setBank_mtr (n : Nat) (v : Bank) : (setBank s n v).mtr = s.mtr := rfl
@[simp] theorem setBank_ctxs (n : Nat) (v : Bank) : (setBank s n v).ctxs = s.ctxs := rfl
@[simp] theorem setBank_queues (n : Nat) (v : Bank) : (setBank s n v).queues = s.queues := rfl
@[simp] theorem setBank_notices (n : Nat) (v : Bank) : (setBank s n v).notices = s.notices := rfl
@[simp] theorem setBank_flights (n : Nat) (v : Bank) : (setBank s n v).flights = s.flights := rfl
@[simp] theorem setBank_engines (n : Nat) (v : Bank) : (setBank s n v).engines = s.engines := rfl
@[simp] theorem setBank_jobs (n : Nat) (v : Bank) : (setBank s n v).jobs = s.jobs := rfl
@[simp] theorem setBank_cnv (n : Nat) (v : Bank) : (setBank s n v).cnv = s.cnv := rfl
@[simp] theorem setBank_tsu (n : Nat) (v : Bank) : (setBank s n v).tsu = s.tsu := rfl
@[simp] theorem setBank_links (n : Nat) (v : Bank) : (setBank s n v).links = s.links := rfl
@[simp] theorem setBank_dom (n : Nat) (v : Bank) : (setBank s n v).dom = s.dom := rfl
@[simp] theorem setBank_twl (n : Nat) (v : Bank) : (setBank s n v).twl = s.twl := rfl
@[simp] theorem setBank_log (n : Nat) (v : Bank) : (setBank s n v).log = s.log := rfl
@[simp] theorem setBank_mgt (n : Nat) (v : Bank) : (setBank s n v).mgt = s.mgt := rfl
@[simp] theorem setBank_sec (n : Nat) (v : Bank) : (setBank s n v).sec = s.sec := rfl
@[simp] theorem setBank_upd (n : Nat) (v : Bank) : (setBank s n v).upd = s.upd := rfl
@[simp] theorem setBank_flash (n : Nat) (v : Bank) : (setBank s n v).flash = s.flash := rfl
@[simp] theorem setBank_pwr (n : Nat) (v : Bank) : (setBank s n v).pwr = s.pwr := rfl
@[simp] theorem setBank_pending (n : Nat) (v : Bank) : (setBank s n v).pending = s.pending := rfl

/-! ### setChan -/

@[simp] theorem setChan_regs (n : Nat) (v : Chan) : (setChan s n v).regs = s.regs := rfl
@[simp] theorem setChan_cyc (n : Nat) (v : Chan) : (setChan s n v).cyc = s.cyc := rfl
@[simp] theorem setChan_time (n : Nat) (v : Chan) : (setChan s n v).time = s.time := rfl
@[simp] theorem setChan_fresh (n : Nat) (v : Chan) : (setChan s n v).fresh = s.fresh := rfl
@[simp] theorem setChan_sessions (n : Nat) (v : Chan) : (setChan s n v).sessions = s.sessions := rfl
@[simp] theorem setChan_out (n : Nat) (v : Chan) : (setChan s n v).out = s.out := rfl
@[simp] theorem setChan_sch (n : Nat) (v : Chan) : (setChan s n v).sch = s.sch := rfl
@[simp] theorem setChan_axs (n : Nat) (v : Chan) : (setChan s n v).axs = s.axs := rfl
@[simp] theorem setChan_dieT (n : Nat) (v : Chan) : (setChan s n v).dieT = s.dieT := rfl
@[simp] theorem setChan_banks (n : Nat) (v : Chan) : (setChan s n v).banks = s.banks := rfl
@[simp] theorem setChan_chains (n : Nat) (v : Chan) : (setChan s n v).chains = s.chains := rfl
@[simp] theorem setChan_ports (n : Nat) (v : Chan) : (setChan s n v).ports = s.ports := rfl
@[simp] theorem setChan_boostUp (n : Nat) (v : Chan) : (setChan s n v).boostUp = s.boostUp := rfl
@[simp] theorem setChan_vb (n : Nat) (v : Chan) : (setChan s n v).vb = s.vb := rfl
@[simp] theorem setChan_optK (n : Nat) (v : Chan) : (setChan s n v).optK = s.optK := rfl
@[simp] theorem setChan_optM (n : Nat) (v : Chan) : (setChan s n v).optM = s.optM := rfl
@[simp] theorem setChan_mtr (n : Nat) (v : Chan) : (setChan s n v).mtr = s.mtr := rfl
@[simp] theorem setChan_ctxs (n : Nat) (v : Chan) : (setChan s n v).ctxs = s.ctxs := rfl
@[simp] theorem setChan_queues (n : Nat) (v : Chan) : (setChan s n v).queues = s.queues := rfl
@[simp] theorem setChan_notices (n : Nat) (v : Chan) : (setChan s n v).notices = s.notices := rfl
@[simp] theorem setChan_flights (n : Nat) (v : Chan) : (setChan s n v).flights = s.flights := rfl
@[simp] theorem setChan_engines (n : Nat) (v : Chan) : (setChan s n v).engines = s.engines := rfl
@[simp] theorem setChan_jobs (n : Nat) (v : Chan) : (setChan s n v).jobs = s.jobs := rfl
@[simp] theorem setChan_cnv (n : Nat) (v : Chan) : (setChan s n v).cnv = s.cnv := rfl
@[simp] theorem setChan_tsu (n : Nat) (v : Chan) : (setChan s n v).tsu = s.tsu := rfl
@[simp] theorem setChan_links (n : Nat) (v : Chan) : (setChan s n v).links = s.links := rfl
@[simp] theorem setChan_dom (n : Nat) (v : Chan) : (setChan s n v).dom = s.dom := rfl
@[simp] theorem setChan_twl (n : Nat) (v : Chan) : (setChan s n v).twl = s.twl := rfl
@[simp] theorem setChan_log (n : Nat) (v : Chan) : (setChan s n v).log = s.log := rfl
@[simp] theorem setChan_mgt (n : Nat) (v : Chan) : (setChan s n v).mgt = s.mgt := rfl
@[simp] theorem setChan_sec (n : Nat) (v : Chan) : (setChan s n v).sec = s.sec := rfl
@[simp] theorem setChan_upd (n : Nat) (v : Chan) : (setChan s n v).upd = s.upd := rfl
@[simp] theorem setChan_flash (n : Nat) (v : Chan) : (setChan s n v).flash = s.flash := rfl
@[simp] theorem setChan_pwr (n : Nat) (v : Chan) : (setChan s n v).pwr = s.pwr := rfl
@[simp] theorem setChan_pending (n : Nat) (v : Chan) : (setChan s n v).pending = s.pending := rfl

/-! ### setOport -/

@[simp] theorem setOport_regs (n : Nat) (v : OptPort) : (setOport s n v).regs = s.regs := rfl
@[simp] theorem setOport_cyc (n : Nat) (v : OptPort) : (setOport s n v).cyc = s.cyc := rfl
@[simp] theorem setOport_time (n : Nat) (v : OptPort) : (setOport s n v).time = s.time := rfl
@[simp] theorem setOport_fresh (n : Nat) (v : OptPort) : (setOport s n v).fresh = s.fresh := rfl
@[simp] theorem setOport_sessions (n : Nat) (v : OptPort) : (setOport s n v).sessions = s.sessions := rfl
@[simp] theorem setOport_out (n : Nat) (v : OptPort) : (setOport s n v).out = s.out := rfl
@[simp] theorem setOport_sch (n : Nat) (v : OptPort) : (setOport s n v).sch = s.sch := rfl
@[simp] theorem setOport_axs (n : Nat) (v : OptPort) : (setOport s n v).axs = s.axs := rfl
@[simp] theorem setOport_dieT (n : Nat) (v : OptPort) : (setOport s n v).dieT = s.dieT := rfl
@[simp] theorem setOport_banks (n : Nat) (v : OptPort) : (setOport s n v).banks = s.banks := rfl
@[simp] theorem setOport_chans (n : Nat) (v : OptPort) : (setOport s n v).chans = s.chans := rfl
@[simp] theorem setOport_chains (n : Nat) (v : OptPort) : (setOport s n v).chains = s.chains := rfl
@[simp] theorem setOport_boostUp (n : Nat) (v : OptPort) : (setOport s n v).boostUp = s.boostUp := rfl
@[simp] theorem setOport_vb (n : Nat) (v : OptPort) : (setOport s n v).vb = s.vb := rfl
@[simp] theorem setOport_optK (n : Nat) (v : OptPort) : (setOport s n v).optK = s.optK := rfl
@[simp] theorem setOport_optM (n : Nat) (v : OptPort) : (setOport s n v).optM = s.optM := rfl
@[simp] theorem setOport_mtr (n : Nat) (v : OptPort) : (setOport s n v).mtr = s.mtr := rfl
@[simp] theorem setOport_ctxs (n : Nat) (v : OptPort) : (setOport s n v).ctxs = s.ctxs := rfl
@[simp] theorem setOport_queues (n : Nat) (v : OptPort) : (setOport s n v).queues = s.queues := rfl
@[simp] theorem setOport_notices (n : Nat) (v : OptPort) : (setOport s n v).notices = s.notices := rfl
@[simp] theorem setOport_flights (n : Nat) (v : OptPort) : (setOport s n v).flights = s.flights := rfl
@[simp] theorem setOport_engines (n : Nat) (v : OptPort) : (setOport s n v).engines = s.engines := rfl
@[simp] theorem setOport_jobs (n : Nat) (v : OptPort) : (setOport s n v).jobs = s.jobs := rfl
@[simp] theorem setOport_cnv (n : Nat) (v : OptPort) : (setOport s n v).cnv = s.cnv := rfl
@[simp] theorem setOport_tsu (n : Nat) (v : OptPort) : (setOport s n v).tsu = s.tsu := rfl
@[simp] theorem setOport_links (n : Nat) (v : OptPort) : (setOport s n v).links = s.links := rfl
@[simp] theorem setOport_dom (n : Nat) (v : OptPort) : (setOport s n v).dom = s.dom := rfl
@[simp] theorem setOport_twl (n : Nat) (v : OptPort) : (setOport s n v).twl = s.twl := rfl
@[simp] theorem setOport_log (n : Nat) (v : OptPort) : (setOport s n v).log = s.log := rfl
@[simp] theorem setOport_mgt (n : Nat) (v : OptPort) : (setOport s n v).mgt = s.mgt := rfl
@[simp] theorem setOport_sec (n : Nat) (v : OptPort) : (setOport s n v).sec = s.sec := rfl
@[simp] theorem setOport_upd (n : Nat) (v : OptPort) : (setOport s n v).upd = s.upd := rfl
@[simp] theorem setOport_flash (n : Nat) (v : OptPort) : (setOport s n v).flash = s.flash := rfl
@[simp] theorem setOport_pwr (n : Nat) (v : OptPort) : (setOport s n v).pwr = s.pwr := rfl
@[simp] theorem setOport_pending (n : Nat) (v : OptPort) : (setOport s n v).pending = s.pending := rfl

/-! ### setCtx -/

@[simp] theorem setCtx_regs (n : Nat) (v : Ctx) : (setCtx s n v).regs = s.regs := rfl
@[simp] theorem setCtx_cyc (n : Nat) (v : Ctx) : (setCtx s n v).cyc = s.cyc := rfl
@[simp] theorem setCtx_time (n : Nat) (v : Ctx) : (setCtx s n v).time = s.time := rfl
@[simp] theorem setCtx_fresh (n : Nat) (v : Ctx) : (setCtx s n v).fresh = s.fresh := rfl
@[simp] theorem setCtx_sessions (n : Nat) (v : Ctx) : (setCtx s n v).sessions = s.sessions := rfl
@[simp] theorem setCtx_out (n : Nat) (v : Ctx) : (setCtx s n v).out = s.out := rfl
@[simp] theorem setCtx_sch (n : Nat) (v : Ctx) : (setCtx s n v).sch = s.sch := rfl
@[simp] theorem setCtx_axs (n : Nat) (v : Ctx) : (setCtx s n v).axs = s.axs := rfl
@[simp] theorem setCtx_dieT (n : Nat) (v : Ctx) : (setCtx s n v).dieT = s.dieT := rfl
@[simp] theorem setCtx_banks (n : Nat) (v : Ctx) : (setCtx s n v).banks = s.banks := rfl
@[simp] theorem setCtx_chans (n : Nat) (v : Ctx) : (setCtx s n v).chans = s.chans := rfl
@[simp] theorem setCtx_chains (n : Nat) (v : Ctx) : (setCtx s n v).chains = s.chains := rfl
@[simp] theorem setCtx_ports (n : Nat) (v : Ctx) : (setCtx s n v).ports = s.ports := rfl
@[simp] theorem setCtx_boostUp (n : Nat) (v : Ctx) : (setCtx s n v).boostUp = s.boostUp := rfl
@[simp] theorem setCtx_vb (n : Nat) (v : Ctx) : (setCtx s n v).vb = s.vb := rfl
@[simp] theorem setCtx_optK (n : Nat) (v : Ctx) : (setCtx s n v).optK = s.optK := rfl
@[simp] theorem setCtx_optM (n : Nat) (v : Ctx) : (setCtx s n v).optM = s.optM := rfl
@[simp] theorem setCtx_mtr (n : Nat) (v : Ctx) : (setCtx s n v).mtr = s.mtr := rfl
@[simp] theorem setCtx_queues (n : Nat) (v : Ctx) : (setCtx s n v).queues = s.queues := rfl
@[simp] theorem setCtx_notices (n : Nat) (v : Ctx) : (setCtx s n v).notices = s.notices := rfl
@[simp] theorem setCtx_flights (n : Nat) (v : Ctx) : (setCtx s n v).flights = s.flights := rfl
@[simp] theorem setCtx_engines (n : Nat) (v : Ctx) : (setCtx s n v).engines = s.engines := rfl
@[simp] theorem setCtx_jobs (n : Nat) (v : Ctx) : (setCtx s n v).jobs = s.jobs := rfl
@[simp] theorem setCtx_cnv (n : Nat) (v : Ctx) : (setCtx s n v).cnv = s.cnv := rfl
@[simp] theorem setCtx_tsu (n : Nat) (v : Ctx) : (setCtx s n v).tsu = s.tsu := rfl
@[simp] theorem setCtx_links (n : Nat) (v : Ctx) : (setCtx s n v).links = s.links := rfl
@[simp] theorem setCtx_dom (n : Nat) (v : Ctx) : (setCtx s n v).dom = s.dom := rfl
@[simp] theorem setCtx_twl (n : Nat) (v : Ctx) : (setCtx s n v).twl = s.twl := rfl
@[simp] theorem setCtx_log (n : Nat) (v : Ctx) : (setCtx s n v).log = s.log := rfl
@[simp] theorem setCtx_mgt (n : Nat) (v : Ctx) : (setCtx s n v).mgt = s.mgt := rfl
@[simp] theorem setCtx_sec (n : Nat) (v : Ctx) : (setCtx s n v).sec = s.sec := rfl
@[simp] theorem setCtx_upd (n : Nat) (v : Ctx) : (setCtx s n v).upd = s.upd := rfl
@[simp] theorem setCtx_flash (n : Nat) (v : Ctx) : (setCtx s n v).flash = s.flash := rfl
@[simp] theorem setCtx_pwr (n : Nat) (v : Ctx) : (setCtx s n v).pwr = s.pwr := rfl
@[simp] theorem setCtx_pending (n : Nat) (v : Ctx) : (setCtx s n v).pending = s.pending := rfl

/-! ### setQueue -/

@[simp] theorem setQueue_regs (n : Nat) (v : Queue) : (setQueue s n v).regs = s.regs := rfl
@[simp] theorem setQueue_cyc (n : Nat) (v : Queue) : (setQueue s n v).cyc = s.cyc := rfl
@[simp] theorem setQueue_time (n : Nat) (v : Queue) : (setQueue s n v).time = s.time := rfl
@[simp] theorem setQueue_fresh (n : Nat) (v : Queue) : (setQueue s n v).fresh = s.fresh := rfl
@[simp] theorem setQueue_sessions (n : Nat) (v : Queue) : (setQueue s n v).sessions = s.sessions := rfl
@[simp] theorem setQueue_out (n : Nat) (v : Queue) : (setQueue s n v).out = s.out := rfl
@[simp] theorem setQueue_sch (n : Nat) (v : Queue) : (setQueue s n v).sch = s.sch := rfl
@[simp] theorem setQueue_axs (n : Nat) (v : Queue) : (setQueue s n v).axs = s.axs := rfl
@[simp] theorem setQueue_dieT (n : Nat) (v : Queue) : (setQueue s n v).dieT = s.dieT := rfl
@[simp] theorem setQueue_banks (n : Nat) (v : Queue) : (setQueue s n v).banks = s.banks := rfl
@[simp] theorem setQueue_chans (n : Nat) (v : Queue) : (setQueue s n v).chans = s.chans := rfl
@[simp] theorem setQueue_chains (n : Nat) (v : Queue) : (setQueue s n v).chains = s.chains := rfl
@[simp] theorem setQueue_ports (n : Nat) (v : Queue) : (setQueue s n v).ports = s.ports := rfl
@[simp] theorem setQueue_boostUp (n : Nat) (v : Queue) : (setQueue s n v).boostUp = s.boostUp := rfl
@[simp] theorem setQueue_vb (n : Nat) (v : Queue) : (setQueue s n v).vb = s.vb := rfl
@[simp] theorem setQueue_optK (n : Nat) (v : Queue) : (setQueue s n v).optK = s.optK := rfl
@[simp] theorem setQueue_optM (n : Nat) (v : Queue) : (setQueue s n v).optM = s.optM := rfl
@[simp] theorem setQueue_mtr (n : Nat) (v : Queue) : (setQueue s n v).mtr = s.mtr := rfl
@[simp] theorem setQueue_ctxs (n : Nat) (v : Queue) : (setQueue s n v).ctxs = s.ctxs := rfl
@[simp] theorem setQueue_notices (n : Nat) (v : Queue) : (setQueue s n v).notices = s.notices := rfl
@[simp] theorem setQueue_flights (n : Nat) (v : Queue) : (setQueue s n v).flights = s.flights := rfl
@[simp] theorem setQueue_engines (n : Nat) (v : Queue) : (setQueue s n v).engines = s.engines := rfl
@[simp] theorem setQueue_jobs (n : Nat) (v : Queue) : (setQueue s n v).jobs = s.jobs := rfl
@[simp] theorem setQueue_cnv (n : Nat) (v : Queue) : (setQueue s n v).cnv = s.cnv := rfl
@[simp] theorem setQueue_tsu (n : Nat) (v : Queue) : (setQueue s n v).tsu = s.tsu := rfl
@[simp] theorem setQueue_links (n : Nat) (v : Queue) : (setQueue s n v).links = s.links := rfl
@[simp] theorem setQueue_dom (n : Nat) (v : Queue) : (setQueue s n v).dom = s.dom := rfl
@[simp] theorem setQueue_twl (n : Nat) (v : Queue) : (setQueue s n v).twl = s.twl := rfl
@[simp] theorem setQueue_log (n : Nat) (v : Queue) : (setQueue s n v).log = s.log := rfl
@[simp] theorem setQueue_mgt (n : Nat) (v : Queue) : (setQueue s n v).mgt = s.mgt := rfl
@[simp] theorem setQueue_sec (n : Nat) (v : Queue) : (setQueue s n v).sec = s.sec := rfl
@[simp] theorem setQueue_upd (n : Nat) (v : Queue) : (setQueue s n v).upd = s.upd := rfl
@[simp] theorem setQueue_flash (n : Nat) (v : Queue) : (setQueue s n v).flash = s.flash := rfl
@[simp] theorem setQueue_pwr (n : Nat) (v : Queue) : (setQueue s n v).pwr = s.pwr := rfl
@[simp] theorem setQueue_pending (n : Nat) (v : Queue) : (setQueue s n v).pending = s.pending := rfl

/-! ### setEngine -/

@[simp] theorem setEngine_regs (n : Nat) (v : Engine) : (setEngine s n v).regs = s.regs := rfl
@[simp] theorem setEngine_cyc (n : Nat) (v : Engine) : (setEngine s n v).cyc = s.cyc := rfl
@[simp] theorem setEngine_time (n : Nat) (v : Engine) : (setEngine s n v).time = s.time := rfl
@[simp] theorem setEngine_fresh (n : Nat) (v : Engine) : (setEngine s n v).fresh = s.fresh := rfl
@[simp] theorem setEngine_sessions (n : Nat) (v : Engine) : (setEngine s n v).sessions = s.sessions := rfl
@[simp] theorem setEngine_out (n : Nat) (v : Engine) : (setEngine s n v).out = s.out := rfl
@[simp] theorem setEngine_sch (n : Nat) (v : Engine) : (setEngine s n v).sch = s.sch := rfl
@[simp] theorem setEngine_axs (n : Nat) (v : Engine) : (setEngine s n v).axs = s.axs := rfl
@[simp] theorem setEngine_dieT (n : Nat) (v : Engine) : (setEngine s n v).dieT = s.dieT := rfl
@[simp] theorem setEngine_banks (n : Nat) (v : Engine) : (setEngine s n v).banks = s.banks := rfl
@[simp] theorem setEngine_chans (n : Nat) (v : Engine) : (setEngine s n v).chans = s.chans := rfl
@[simp] theorem setEngine_chains (n : Nat) (v : Engine) : (setEngine s n v).chains = s.chains := rfl
@[simp] theorem setEngine_ports (n : Nat) (v : Engine) : (setEngine s n v).ports = s.ports := rfl
@[simp] theorem setEngine_boostUp (n : Nat) (v : Engine) : (setEngine s n v).boostUp = s.boostUp := rfl
@[simp] theorem setEngine_vb (n : Nat) (v : Engine) : (setEngine s n v).vb = s.vb := rfl
@[simp] theorem setEngine_optK (n : Nat) (v : Engine) : (setEngine s n v).optK = s.optK := rfl
@[simp] theorem setEngine_optM (n : Nat) (v : Engine) : (setEngine s n v).optM = s.optM := rfl
@[simp] theorem setEngine_mtr (n : Nat) (v : Engine) : (setEngine s n v).mtr = s.mtr := rfl
@[simp] theorem setEngine_ctxs (n : Nat) (v : Engine) : (setEngine s n v).ctxs = s.ctxs := rfl
@[simp] theorem setEngine_queues (n : Nat) (v : Engine) : (setEngine s n v).queues = s.queues := rfl
@[simp] theorem setEngine_notices (n : Nat) (v : Engine) : (setEngine s n v).notices = s.notices := rfl
@[simp] theorem setEngine_flights (n : Nat) (v : Engine) : (setEngine s n v).flights = s.flights := rfl
@[simp] theorem setEngine_jobs (n : Nat) (v : Engine) : (setEngine s n v).jobs = s.jobs := rfl
@[simp] theorem setEngine_cnv (n : Nat) (v : Engine) : (setEngine s n v).cnv = s.cnv := rfl
@[simp] theorem setEngine_tsu (n : Nat) (v : Engine) : (setEngine s n v).tsu = s.tsu := rfl
@[simp] theorem setEngine_links (n : Nat) (v : Engine) : (setEngine s n v).links = s.links := rfl
@[simp] theorem setEngine_dom (n : Nat) (v : Engine) : (setEngine s n v).dom = s.dom := rfl
@[simp] theorem setEngine_twl (n : Nat) (v : Engine) : (setEngine s n v).twl = s.twl := rfl
@[simp] theorem setEngine_log (n : Nat) (v : Engine) : (setEngine s n v).log = s.log := rfl
@[simp] theorem setEngine_mgt (n : Nat) (v : Engine) : (setEngine s n v).mgt = s.mgt := rfl
@[simp] theorem setEngine_sec (n : Nat) (v : Engine) : (setEngine s n v).sec = s.sec := rfl
@[simp] theorem setEngine_upd (n : Nat) (v : Engine) : (setEngine s n v).upd = s.upd := rfl
@[simp] theorem setEngine_flash (n : Nat) (v : Engine) : (setEngine s n v).flash = s.flash := rfl
@[simp] theorem setEngine_pwr (n : Nat) (v : Engine) : (setEngine s n v).pwr = s.pwr := rfl
@[simp] theorem setEngine_pending (n : Nat) (v : Engine) : (setEngine s n v).pending = s.pending := rfl

/-! ### setJob -/

@[simp] theorem setJob_regs (n : Nat) (v : Job) : (setJob s n v).regs = s.regs := rfl
@[simp] theorem setJob_cyc (n : Nat) (v : Job) : (setJob s n v).cyc = s.cyc := rfl
@[simp] theorem setJob_time (n : Nat) (v : Job) : (setJob s n v).time = s.time := rfl
@[simp] theorem setJob_fresh (n : Nat) (v : Job) : (setJob s n v).fresh = s.fresh := rfl
@[simp] theorem setJob_sessions (n : Nat) (v : Job) : (setJob s n v).sessions = s.sessions := rfl
@[simp] theorem setJob_out (n : Nat) (v : Job) : (setJob s n v).out = s.out := rfl
@[simp] theorem setJob_sch (n : Nat) (v : Job) : (setJob s n v).sch = s.sch := rfl
@[simp] theorem setJob_axs (n : Nat) (v : Job) : (setJob s n v).axs = s.axs := rfl
@[simp] theorem setJob_dieT (n : Nat) (v : Job) : (setJob s n v).dieT = s.dieT := rfl
@[simp] theorem setJob_banks (n : Nat) (v : Job) : (setJob s n v).banks = s.banks := rfl
@[simp] theorem setJob_chans (n : Nat) (v : Job) : (setJob s n v).chans = s.chans := rfl
@[simp] theorem setJob_chains (n : Nat) (v : Job) : (setJob s n v).chains = s.chains := rfl
@[simp] theorem setJob_ports (n : Nat) (v : Job) : (setJob s n v).ports = s.ports := rfl
@[simp] theorem setJob_boostUp (n : Nat) (v : Job) : (setJob s n v).boostUp = s.boostUp := rfl
@[simp] theorem setJob_vb (n : Nat) (v : Job) : (setJob s n v).vb = s.vb := rfl
@[simp] theorem setJob_optK (n : Nat) (v : Job) : (setJob s n v).optK = s.optK := rfl
@[simp] theorem setJob_optM (n : Nat) (v : Job) : (setJob s n v).optM = s.optM := rfl
@[simp] theorem setJob_mtr (n : Nat) (v : Job) : (setJob s n v).mtr = s.mtr := rfl
@[simp] theorem setJob_ctxs (n : Nat) (v : Job) : (setJob s n v).ctxs = s.ctxs := rfl
@[simp] theorem setJob_queues (n : Nat) (v : Job) : (setJob s n v).queues = s.queues := rfl
@[simp] theorem setJob_notices (n : Nat) (v : Job) : (setJob s n v).notices = s.notices := rfl
@[simp] theorem setJob_flights (n : Nat) (v : Job) : (setJob s n v).flights = s.flights := rfl
@[simp] theorem setJob_engines (n : Nat) (v : Job) : (setJob s n v).engines = s.engines := rfl
@[simp] theorem setJob_cnv (n : Nat) (v : Job) : (setJob s n v).cnv = s.cnv := rfl
@[simp] theorem setJob_tsu (n : Nat) (v : Job) : (setJob s n v).tsu = s.tsu := rfl
@[simp] theorem setJob_links (n : Nat) (v : Job) : (setJob s n v).links = s.links := rfl
@[simp] theorem setJob_dom (n : Nat) (v : Job) : (setJob s n v).dom = s.dom := rfl
@[simp] theorem setJob_twl (n : Nat) (v : Job) : (setJob s n v).twl = s.twl := rfl
@[simp] theorem setJob_log (n : Nat) (v : Job) : (setJob s n v).log = s.log := rfl
@[simp] theorem setJob_mgt (n : Nat) (v : Job) : (setJob s n v).mgt = s.mgt := rfl
@[simp] theorem setJob_sec (n : Nat) (v : Job) : (setJob s n v).sec = s.sec := rfl
@[simp] theorem setJob_upd (n : Nat) (v : Job) : (setJob s n v).upd = s.upd := rfl
@[simp] theorem setJob_flash (n : Nat) (v : Job) : (setJob s n v).flash = s.flash := rfl
@[simp] theorem setJob_pwr (n : Nat) (v : Job) : (setJob s n v).pwr = s.pwr := rfl
@[simp] theorem setJob_pending (n : Nat) (v : Job) : (setJob s n v).pending = s.pending := rfl

/-! ### setLink -/

@[simp] theorem setLink_regs (n : Nat) (v : Link) : (setLink s n v).regs = s.regs := rfl
@[simp] theorem setLink_cyc (n : Nat) (v : Link) : (setLink s n v).cyc = s.cyc := rfl
@[simp] theorem setLink_time (n : Nat) (v : Link) : (setLink s n v).time = s.time := rfl
@[simp] theorem setLink_fresh (n : Nat) (v : Link) : (setLink s n v).fresh = s.fresh := rfl
@[simp] theorem setLink_sessions (n : Nat) (v : Link) : (setLink s n v).sessions = s.sessions := rfl
@[simp] theorem setLink_out (n : Nat) (v : Link) : (setLink s n v).out = s.out := rfl
@[simp] theorem setLink_sch (n : Nat) (v : Link) : (setLink s n v).sch = s.sch := rfl
@[simp] theorem setLink_axs (n : Nat) (v : Link) : (setLink s n v).axs = s.axs := rfl
@[simp] theorem setLink_dieT (n : Nat) (v : Link) : (setLink s n v).dieT = s.dieT := rfl
@[simp] theorem setLink_banks (n : Nat) (v : Link) : (setLink s n v).banks = s.banks := rfl
@[simp] theorem setLink_chans (n : Nat) (v : Link) : (setLink s n v).chans = s.chans := rfl
@[simp] theorem setLink_chains (n : Nat) (v : Link) : (setLink s n v).chains = s.chains := rfl
@[simp] theorem setLink_ports (n : Nat) (v : Link) : (setLink s n v).ports = s.ports := rfl
@[simp] theorem setLink_boostUp (n : Nat) (v : Link) : (setLink s n v).boostUp = s.boostUp := rfl
@[simp] theorem setLink_vb (n : Nat) (v : Link) : (setLink s n v).vb = s.vb := rfl
@[simp] theorem setLink_optK (n : Nat) (v : Link) : (setLink s n v).optK = s.optK := rfl
@[simp] theorem setLink_optM (n : Nat) (v : Link) : (setLink s n v).optM = s.optM := rfl
@[simp] theorem setLink_mtr (n : Nat) (v : Link) : (setLink s n v).mtr = s.mtr := rfl
@[simp] theorem setLink_ctxs (n : Nat) (v : Link) : (setLink s n v).ctxs = s.ctxs := rfl
@[simp] theorem setLink_queues (n : Nat) (v : Link) : (setLink s n v).queues = s.queues := rfl
@[simp] theorem setLink_notices (n : Nat) (v : Link) : (setLink s n v).notices = s.notices := rfl
@[simp] theorem setLink_flights (n : Nat) (v : Link) : (setLink s n v).flights = s.flights := rfl
@[simp] theorem setLink_engines (n : Nat) (v : Link) : (setLink s n v).engines = s.engines := rfl
@[simp] theorem setLink_jobs (n : Nat) (v : Link) : (setLink s n v).jobs = s.jobs := rfl
@[simp] theorem setLink_cnv (n : Nat) (v : Link) : (setLink s n v).cnv = s.cnv := rfl
@[simp] theorem setLink_tsu (n : Nat) (v : Link) : (setLink s n v).tsu = s.tsu := rfl
@[simp] theorem setLink_dom (n : Nat) (v : Link) : (setLink s n v).dom = s.dom := rfl
@[simp] theorem setLink_twl (n : Nat) (v : Link) : (setLink s n v).twl = s.twl := rfl
@[simp] theorem setLink_log (n : Nat) (v : Link) : (setLink s n v).log = s.log := rfl
@[simp] theorem setLink_mgt (n : Nat) (v : Link) : (setLink s n v).mgt = s.mgt := rfl
@[simp] theorem setLink_sec (n : Nat) (v : Link) : (setLink s n v).sec = s.sec := rfl
@[simp] theorem setLink_upd (n : Nat) (v : Link) : (setLink s n v).upd = s.upd := rfl
@[simp] theorem setLink_flash (n : Nat) (v : Link) : (setLink s n v).flash = s.flash := rfl
@[simp] theorem setLink_pwr (n : Nat) (v : Link) : (setLink s n v).pwr = s.pwr := rfl
@[simp] theorem setLink_pending (n : Nat) (v : Link) : (setLink s n v).pending = s.pending := rfl

/-! ### setSession -/

@[simp] theorem setSession_regs (n : Nat) (v : Option Session) : (setSession s n v).regs = s.regs := rfl
@[simp] theorem setSession_cyc (n : Nat) (v : Option Session) : (setSession s n v).cyc = s.cyc := rfl
@[simp] theorem setSession_time (n : Nat) (v : Option Session) : (setSession s n v).time = s.time := rfl
@[simp] theorem setSession_fresh (n : Nat) (v : Option Session) : (setSession s n v).fresh = s.fresh := rfl
@[simp] theorem setSession_out (n : Nat) (v : Option Session) : (setSession s n v).out = s.out := rfl
@[simp] theorem setSession_sch (n : Nat) (v : Option Session) : (setSession s n v).sch = s.sch := rfl
@[simp] theorem setSession_axs (n : Nat) (v : Option Session) : (setSession s n v).axs = s.axs := rfl
@[simp] theorem setSession_dieT (n : Nat) (v : Option Session) : (setSession s n v).dieT = s.dieT := rfl
@[simp] theorem setSession_banks (n : Nat) (v : Option Session) : (setSession s n v).banks = s.banks := rfl
@[simp] theorem setSession_chans (n : Nat) (v : Option Session) : (setSession s n v).chans = s.chans := rfl
@[simp] theorem setSession_chains (n : Nat) (v : Option Session) : (setSession s n v).chains = s.chains := rfl
@[simp] theorem setSession_ports (n : Nat) (v : Option Session) : (setSession s n v).ports = s.ports := rfl
@[simp] theorem setSession_boostUp (n : Nat) (v : Option Session) : (setSession s n v).boostUp = s.boostUp := rfl
@[simp] theorem setSession_vb (n : Nat) (v : Option Session) : (setSession s n v).vb = s.vb := rfl
@[simp] theorem setSession_optK (n : Nat) (v : Option Session) : (setSession s n v).optK = s.optK := rfl
@[simp] theorem setSession_optM (n : Nat) (v : Option Session) : (setSession s n v).optM = s.optM := rfl
@[simp] theorem setSession_mtr (n : Nat) (v : Option Session) : (setSession s n v).mtr = s.mtr := rfl
@[simp] theorem setSession_ctxs (n : Nat) (v : Option Session) : (setSession s n v).ctxs = s.ctxs := rfl
@[simp] theorem setSession_queues (n : Nat) (v : Option Session) : (setSession s n v).queues = s.queues := rfl
@[simp] theorem setSession_notices (n : Nat) (v : Option Session) : (setSession s n v).notices = s.notices := rfl
@[simp] theorem setSession_flights (n : Nat) (v : Option Session) : (setSession s n v).flights = s.flights := rfl
@[simp] theorem setSession_engines (n : Nat) (v : Option Session) : (setSession s n v).engines = s.engines := rfl
@[simp] theorem setSession_jobs (n : Nat) (v : Option Session) : (setSession s n v).jobs = s.jobs := rfl
@[simp] theorem setSession_cnv (n : Nat) (v : Option Session) : (setSession s n v).cnv = s.cnv := rfl
@[simp] theorem setSession_tsu (n : Nat) (v : Option Session) : (setSession s n v).tsu = s.tsu := rfl
@[simp] theorem setSession_links (n : Nat) (v : Option Session) : (setSession s n v).links = s.links := rfl
@[simp] theorem setSession_dom (n : Nat) (v : Option Session) : (setSession s n v).dom = s.dom := rfl
@[simp] theorem setSession_twl (n : Nat) (v : Option Session) : (setSession s n v).twl = s.twl := rfl
@[simp] theorem setSession_log (n : Nat) (v : Option Session) : (setSession s n v).log = s.log := rfl
@[simp] theorem setSession_mgt (n : Nat) (v : Option Session) : (setSession s n v).mgt = s.mgt := rfl
@[simp] theorem setSession_sec (n : Nat) (v : Option Session) : (setSession s n v).sec = s.sec := rfl
@[simp] theorem setSession_upd (n : Nat) (v : Option Session) : (setSession s n v).upd = s.upd := rfl
@[simp] theorem setSession_flash (n : Nat) (v : Option Session) : (setSession s n v).flash = s.flash := rfl
@[simp] theorem setSession_pwr (n : Nat) (v : Option Session) : (setSession s n v).pwr = s.pwr := rfl
@[simp] theorem setSession_pending (n : Nat) (v : Option Session) : (setSession s n v).pending = s.pending := rfl

/-! ### setProgress -/

@[simp] theorem setProgress_regs (n : Nat) (v : EntProg) : (setProgress s n v).regs = s.regs := rfl
@[simp] theorem setProgress_cyc (n : Nat) (v : EntProg) : (setProgress s n v).cyc = s.cyc := rfl
@[simp] theorem setProgress_time (n : Nat) (v : EntProg) : (setProgress s n v).time = s.time := rfl
@[simp] theorem setProgress_fresh (n : Nat) (v : EntProg) : (setProgress s n v).fresh = s.fresh := rfl
@[simp] theorem setProgress_sessions (n : Nat) (v : EntProg) : (setProgress s n v).sessions = s.sessions := rfl
@[simp] theorem setProgress_out (n : Nat) (v : EntProg) : (setProgress s n v).out = s.out := rfl
@[simp] theorem setProgress_axs (n : Nat) (v : EntProg) : (setProgress s n v).axs = s.axs := rfl
@[simp] theorem setProgress_dieT (n : Nat) (v : EntProg) : (setProgress s n v).dieT = s.dieT := rfl
@[simp] theorem setProgress_banks (n : Nat) (v : EntProg) : (setProgress s n v).banks = s.banks := rfl
@[simp] theorem setProgress_chans (n : Nat) (v : EntProg) : (setProgress s n v).chans = s.chans := rfl
@[simp] theorem setProgress_chains (n : Nat) (v : EntProg) : (setProgress s n v).chains = s.chains := rfl
@[simp] theorem setProgress_ports (n : Nat) (v : EntProg) : (setProgress s n v).ports = s.ports := rfl
@[simp] theorem setProgress_boostUp (n : Nat) (v : EntProg) : (setProgress s n v).boostUp = s.boostUp := rfl
@[simp] theorem setProgress_vb (n : Nat) (v : EntProg) : (setProgress s n v).vb = s.vb := rfl
@[simp] theorem setProgress_optK (n : Nat) (v : EntProg) : (setProgress s n v).optK = s.optK := rfl
@[simp] theorem setProgress_optM (n : Nat) (v : EntProg) : (setProgress s n v).optM = s.optM := rfl
@[simp] theorem setProgress_mtr (n : Nat) (v : EntProg) : (setProgress s n v).mtr = s.mtr := rfl
@[simp] theorem setProgress_ctxs (n : Nat) (v : EntProg) : (setProgress s n v).ctxs = s.ctxs := rfl
@[simp] theorem setProgress_queues (n : Nat) (v : EntProg) : (setProgress s n v).queues = s.queues := rfl
@[simp] theorem setProgress_notices (n : Nat) (v : EntProg) : (setProgress s n v).notices = s.notices := rfl
@[simp] theorem setProgress_flights (n : Nat) (v : EntProg) : (setProgress s n v).flights = s.flights := rfl
@[simp] theorem setProgress_engines (n : Nat) (v : EntProg) : (setProgress s n v).engines = s.engines := rfl
@[simp] theorem setProgress_jobs (n : Nat) (v : EntProg) : (setProgress s n v).jobs = s.jobs := rfl
@[simp] theorem setProgress_cnv (n : Nat) (v : EntProg) : (setProgress s n v).cnv = s.cnv := rfl
@[simp] theorem setProgress_tsu (n : Nat) (v : EntProg) : (setProgress s n v).tsu = s.tsu := rfl
@[simp] theorem setProgress_links (n : Nat) (v : EntProg) : (setProgress s n v).links = s.links := rfl
@[simp] theorem setProgress_dom (n : Nat) (v : EntProg) : (setProgress s n v).dom = s.dom := rfl
@[simp] theorem setProgress_twl (n : Nat) (v : EntProg) : (setProgress s n v).twl = s.twl := rfl
@[simp] theorem setProgress_log (n : Nat) (v : EntProg) : (setProgress s n v).log = s.log := rfl
@[simp] theorem setProgress_mgt (n : Nat) (v : EntProg) : (setProgress s n v).mgt = s.mgt := rfl
@[simp] theorem setProgress_sec (n : Nat) (v : EntProg) : (setProgress s n v).sec = s.sec := rfl
@[simp] theorem setProgress_upd (n : Nat) (v : EntProg) : (setProgress s n v).upd = s.upd := rfl
@[simp] theorem setProgress_flash (n : Nat) (v : EntProg) : (setProgress s n v).flash = s.flash := rfl
@[simp] theorem setProgress_pwr (n : Nat) (v : EntProg) : (setProgress s n v).pwr = s.pwr := rfl
@[simp] theorem setProgress_pending (n : Nat) (v : EntProg) : (setProgress s n v).pending = s.pending := rfl

/-! ### emit -/

@[simp] theorem emit_regs (o : Out) : (emit s o).regs = s.regs := rfl
@[simp] theorem emit_cyc (o : Out) : (emit s o).cyc = s.cyc := rfl
@[simp] theorem emit_time (o : Out) : (emit s o).time = s.time := rfl
@[simp] theorem emit_fresh (o : Out) : (emit s o).fresh = s.fresh := rfl
@[simp] theorem emit_sessions (o : Out) : (emit s o).sessions = s.sessions := rfl
@[simp] theorem emit_sch (o : Out) : (emit s o).sch = s.sch := rfl
@[simp] theorem emit_axs (o : Out) : (emit s o).axs = s.axs := rfl
@[simp] theorem emit_dieT (o : Out) : (emit s o).dieT = s.dieT := rfl
@[simp] theorem emit_banks (o : Out) : (emit s o).banks = s.banks := rfl
@[simp] theorem emit_chans (o : Out) : (emit s o).chans = s.chans := rfl
@[simp] theorem emit_chains (o : Out) : (emit s o).chains = s.chains := rfl
@[simp] theorem emit_ports (o : Out) : (emit s o).ports = s.ports := rfl
@[simp] theorem emit_boostUp (o : Out) : (emit s o).boostUp = s.boostUp := rfl
@[simp] theorem emit_vb (o : Out) : (emit s o).vb = s.vb := rfl
@[simp] theorem emit_optK (o : Out) : (emit s o).optK = s.optK := rfl
@[simp] theorem emit_optM (o : Out) : (emit s o).optM = s.optM := rfl
@[simp] theorem emit_mtr (o : Out) : (emit s o).mtr = s.mtr := rfl
@[simp] theorem emit_ctxs (o : Out) : (emit s o).ctxs = s.ctxs := rfl
@[simp] theorem emit_queues (o : Out) : (emit s o).queues = s.queues := rfl
@[simp] theorem emit_notices (o : Out) : (emit s o).notices = s.notices := rfl
@[simp] theorem emit_flights (o : Out) : (emit s o).flights = s.flights := rfl
@[simp] theorem emit_engines (o : Out) : (emit s o).engines = s.engines := rfl
@[simp] theorem emit_jobs (o : Out) : (emit s o).jobs = s.jobs := rfl
@[simp] theorem emit_cnv (o : Out) : (emit s o).cnv = s.cnv := rfl
@[simp] theorem emit_tsu (o : Out) : (emit s o).tsu = s.tsu := rfl
@[simp] theorem emit_links (o : Out) : (emit s o).links = s.links := rfl
@[simp] theorem emit_dom (o : Out) : (emit s o).dom = s.dom := rfl
@[simp] theorem emit_twl (o : Out) : (emit s o).twl = s.twl := rfl
@[simp] theorem emit_log (o : Out) : (emit s o).log = s.log := rfl
@[simp] theorem emit_mgt (o : Out) : (emit s o).mgt = s.mgt := rfl
@[simp] theorem emit_sec (o : Out) : (emit s o).sec = s.sec := rfl
@[simp] theorem emit_upd (o : Out) : (emit s o).upd = s.upd := rfl
@[simp] theorem emit_flash (o : Out) : (emit s o).flash = s.flash := rfl
@[simp] theorem emit_pwr (o : Out) : (emit s o).pwr = s.pwr := rfl
@[simp] theorem emit_pending (o : Out) : (emit s o).pending = s.pending := rfl

/-! ### memSet -/

@[simp] theorem memSet_regs (a : Nat) (b : BitVec 8) : (memSet s a b).regs = s.regs := rfl
@[simp] theorem memSet_cyc (a : Nat) (b : BitVec 8) : (memSet s a b).cyc = s.cyc := rfl
@[simp] theorem memSet_time (a : Nat) (b : BitVec 8) : (memSet s a b).time = s.time := rfl
@[simp] theorem memSet_fresh (a : Nat) (b : BitVec 8) : (memSet s a b).fresh = s.fresh := rfl
@[simp] theorem memSet_sessions (a : Nat) (b : BitVec 8) : (memSet s a b).sessions = s.sessions := rfl
@[simp] theorem memSet_out (a : Nat) (b : BitVec 8) : (memSet s a b).out = s.out := rfl
@[simp] theorem memSet_sch (a : Nat) (b : BitVec 8) : (memSet s a b).sch = s.sch := rfl
@[simp] theorem memSet_axs (a : Nat) (b : BitVec 8) : (memSet s a b).axs = s.axs := rfl
@[simp] theorem memSet_dieT (a : Nat) (b : BitVec 8) : (memSet s a b).dieT = s.dieT := rfl
@[simp] theorem memSet_banks (a : Nat) (b : BitVec 8) : (memSet s a b).banks = s.banks := rfl
@[simp] theorem memSet_chans (a : Nat) (b : BitVec 8) : (memSet s a b).chans = s.chans := rfl
@[simp] theorem memSet_chains (a : Nat) (b : BitVec 8) : (memSet s a b).chains = s.chains := rfl
@[simp] theorem memSet_ports (a : Nat) (b : BitVec 8) : (memSet s a b).ports = s.ports := rfl
@[simp] theorem memSet_boostUp (a : Nat) (b : BitVec 8) : (memSet s a b).boostUp = s.boostUp := rfl
@[simp] theorem memSet_vb (a : Nat) (b : BitVec 8) : (memSet s a b).vb = s.vb := rfl
@[simp] theorem memSet_optK (a : Nat) (b : BitVec 8) : (memSet s a b).optK = s.optK := rfl
@[simp] theorem memSet_optM (a : Nat) (b : BitVec 8) : (memSet s a b).optM = s.optM := rfl
@[simp] theorem memSet_mtr (a : Nat) (b : BitVec 8) : (memSet s a b).mtr = s.mtr := rfl
@[simp] theorem memSet_ctxs (a : Nat) (b : BitVec 8) : (memSet s a b).ctxs = s.ctxs := rfl
@[simp] theorem memSet_queues (a : Nat) (b : BitVec 8) : (memSet s a b).queues = s.queues := rfl
@[simp] theorem memSet_notices (a : Nat) (b : BitVec 8) : (memSet s a b).notices = s.notices := rfl
@[simp] theorem memSet_flights (a : Nat) (b : BitVec 8) : (memSet s a b).flights = s.flights := rfl
@[simp] theorem memSet_engines (a : Nat) (b : BitVec 8) : (memSet s a b).engines = s.engines := rfl
@[simp] theorem memSet_jobs (a : Nat) (b : BitVec 8) : (memSet s a b).jobs = s.jobs := rfl
@[simp] theorem memSet_tsu (a : Nat) (b : BitVec 8) : (memSet s a b).tsu = s.tsu := rfl
@[simp] theorem memSet_links (a : Nat) (b : BitVec 8) : (memSet s a b).links = s.links := rfl
@[simp] theorem memSet_dom (a : Nat) (b : BitVec 8) : (memSet s a b).dom = s.dom := rfl
@[simp] theorem memSet_twl (a : Nat) (b : BitVec 8) : (memSet s a b).twl = s.twl := rfl
@[simp] theorem memSet_log (a : Nat) (b : BitVec 8) : (memSet s a b).log = s.log := rfl
@[simp] theorem memSet_mgt (a : Nat) (b : BitVec 8) : (memSet s a b).mgt = s.mgt := rfl
@[simp] theorem memSet_sec (a : Nat) (b : BitVec 8) : (memSet s a b).sec = s.sec := rfl
@[simp] theorem memSet_upd (a : Nat) (b : BitVec 8) : (memSet s a b).upd = s.upd := rfl
@[simp] theorem memSet_flash (a : Nat) (b : BitVec 8) : (memSet s a b).flash = s.flash := rfl
@[simp] theorem memSet_pwr (a : Nat) (b : BitVec 8) : (memSet s a b).pwr = s.pwr := rfl
@[simp] theorem memSet_pending (a : Nat) (b : BitVec 8) : (memSet s a b).pending = s.pending := rfl

/-! ### Registers under the other updates -/

@[simp] theorem get_setBank (n : Nat) (v : Bank) (g : Fld) : get (setBank s n v) g = get s g := rfl
@[simp] theorem flag_setBank (n : Nat) (v : Bank) (g : Fld) : flag (setBank s n v) g = flag s g := rfl
@[simp] theorem pstate_setBank (n : Nat) (v : Bank) (p : Nat) : pstate (setBank s n v) p = pstate s p := rfl
@[simp] theorem get_setChan (n : Nat) (v : Chan) (g : Fld) : get (setChan s n v) g = get s g := rfl
@[simp] theorem flag_setChan (n : Nat) (v : Chan) (g : Fld) : flag (setChan s n v) g = flag s g := rfl
@[simp] theorem pstate_setChan (n : Nat) (v : Chan) (p : Nat) : pstate (setChan s n v) p = pstate s p := rfl
@[simp] theorem get_setOport (n : Nat) (v : OptPort) (g : Fld) : get (setOport s n v) g = get s g := rfl
@[simp] theorem flag_setOport (n : Nat) (v : OptPort) (g : Fld) : flag (setOport s n v) g = flag s g := rfl
@[simp] theorem pstate_setOport (n : Nat) (v : OptPort) (p : Nat) : pstate (setOport s n v) p = pstate s p := rfl
@[simp] theorem get_setCtx (n : Nat) (v : Ctx) (g : Fld) : get (setCtx s n v) g = get s g := rfl
@[simp] theorem flag_setCtx (n : Nat) (v : Ctx) (g : Fld) : flag (setCtx s n v) g = flag s g := rfl
@[simp] theorem pstate_setCtx (n : Nat) (v : Ctx) (p : Nat) : pstate (setCtx s n v) p = pstate s p := rfl
@[simp] theorem get_setQueue (n : Nat) (v : Queue) (g : Fld) : get (setQueue s n v) g = get s g := rfl
@[simp] theorem flag_setQueue (n : Nat) (v : Queue) (g : Fld) : flag (setQueue s n v) g = flag s g := rfl
@[simp] theorem pstate_setQueue (n : Nat) (v : Queue) (p : Nat) : pstate (setQueue s n v) p = pstate s p := rfl
@[simp] theorem get_setEngine (n : Nat) (v : Engine) (g : Fld) : get (setEngine s n v) g = get s g := rfl
@[simp] theorem flag_setEngine (n : Nat) (v : Engine) (g : Fld) : flag (setEngine s n v) g = flag s g := rfl
@[simp] theorem pstate_setEngine (n : Nat) (v : Engine) (p : Nat) : pstate (setEngine s n v) p = pstate s p := rfl
@[simp] theorem get_setJob (n : Nat) (v : Job) (g : Fld) : get (setJob s n v) g = get s g := rfl
@[simp] theorem flag_setJob (n : Nat) (v : Job) (g : Fld) : flag (setJob s n v) g = flag s g := rfl
@[simp] theorem pstate_setJob (n : Nat) (v : Job) (p : Nat) : pstate (setJob s n v) p = pstate s p := rfl
@[simp] theorem get_setLink (n : Nat) (v : Link) (g : Fld) : get (setLink s n v) g = get s g := rfl
@[simp] theorem flag_setLink (n : Nat) (v : Link) (g : Fld) : flag (setLink s n v) g = flag s g := rfl
@[simp] theorem pstate_setLink (n : Nat) (v : Link) (p : Nat) : pstate (setLink s n v) p = pstate s p := rfl
@[simp] theorem get_setSession (n : Nat) (v : Option Session) (g : Fld) : get (setSession s n v) g = get s g := rfl
@[simp] theorem flag_setSession (n : Nat) (v : Option Session) (g : Fld) : flag (setSession s n v) g = flag s g := rfl
@[simp] theorem pstate_setSession (n : Nat) (v : Option Session) (p : Nat) : pstate (setSession s n v) p = pstate s p := rfl
@[simp] theorem get_setProgress (n : Nat) (v : EntProg) (g : Fld) : get (setProgress s n v) g = get s g := rfl
@[simp] theorem flag_setProgress (n : Nat) (v : EntProg) (g : Fld) : flag (setProgress s n v) g = flag s g := rfl
@[simp] theorem pstate_setProgress (n : Nat) (v : EntProg) (p : Nat) : pstate (setProgress s n v) p = pstate s p := rfl
@[simp] theorem get_emit (o : Out) (g : Fld) : get (emit s o) g = get s g := rfl
@[simp] theorem flag_emit (o : Out) (g : Fld) : flag (emit s o) g = flag s g := rfl
@[simp] theorem pstate_emit (o : Out) (p : Nat) : pstate (emit s o) p = pstate s p := rfl
@[simp] theorem get_memSet (a : Nat) (b : BitVec 8) (g : Fld) : get (memSet s a b) g = get s g := rfl
@[simp] theorem flag_memSet (a : Nat) (b : BitVec 8) (g : Fld) : flag (memSet s a b) g = flag s g := rfl
@[simp] theorem pstate_memSet (a : Nat) (b : BitVec 8) (p : Nat) : pstate (memSet s a b) p = pstate s p := rfl

/-! ### Instances under the other updates -/

@[simp] theorem bank_put (f : Fld) (v : Nat) (k : Nat) : bank (put s f v) k = bank s k := rfl
@[simp] theorem bank_setChan (n : Nat) (v : Chan) (k : Nat) : bank (setChan s n v) k = bank s k := rfl
@[simp] theorem bank_setOport (n : Nat) (v : OptPort) (k : Nat) : bank (setOport s n v) k = bank s k := rfl
@[simp] theorem bank_setCtx (n : Nat) (v : Ctx) (k : Nat) : bank (setCtx s n v) k = bank s k := rfl
@[simp] theorem bank_setQueue (n : Nat) (v : Queue) (k : Nat) : bank (setQueue s n v) k = bank s k := rfl
@[simp] theorem bank_setEngine (n : Nat) (v : Engine) (k : Nat) : bank (setEngine s n v) k = bank s k := rfl
@[simp] theorem bank_setJob (n : Nat) (v : Job) (k : Nat) : bank (setJob s n v) k = bank s k := rfl
@[simp] theorem bank_setLink (n : Nat) (v : Link) (k : Nat) : bank (setLink s n v) k = bank s k := rfl
@[simp] theorem bank_setSession (n : Nat) (v : Option Session) (k : Nat) : bank (setSession s n v) k = bank s k := rfl
@[simp] theorem bank_setProgress (n : Nat) (v : EntProg) (k : Nat) : bank (setProgress s n v) k = bank s k := rfl
@[simp] theorem bank_emit (o : Out) (k : Nat) : bank (emit s o) k = bank s k := rfl
@[simp] theorem bank_memSet (a : Nat) (b : BitVec 8) (k : Nat) : bank (memSet s a b) k = bank s k := rfl
@[simp] theorem chan_put (f : Fld) (v : Nat) (k : Nat) : chan (put s f v) k = chan s k := rfl
@[simp] theorem chan_setBank (n : Nat) (v : Bank) (k : Nat) : chan (setBank s n v) k = chan s k := rfl
@[simp] theorem chan_setOport (n : Nat) (v : OptPort) (k : Nat) : chan (setOport s n v) k = chan s k := rfl
@[simp] theorem chan_setCtx (n : Nat) (v : Ctx) (k : Nat) : chan (setCtx s n v) k = chan s k := rfl
@[simp] theorem chan_setQueue (n : Nat) (v : Queue) (k : Nat) : chan (setQueue s n v) k = chan s k := rfl
@[simp] theorem chan_setEngine (n : Nat) (v : Engine) (k : Nat) : chan (setEngine s n v) k = chan s k := rfl
@[simp] theorem chan_setJob (n : Nat) (v : Job) (k : Nat) : chan (setJob s n v) k = chan s k := rfl
@[simp] theorem chan_setLink (n : Nat) (v : Link) (k : Nat) : chan (setLink s n v) k = chan s k := rfl
@[simp] theorem chan_setSession (n : Nat) (v : Option Session) (k : Nat) : chan (setSession s n v) k = chan s k := rfl
@[simp] theorem chan_setProgress (n : Nat) (v : EntProg) (k : Nat) : chan (setProgress s n v) k = chan s k := rfl
@[simp] theorem chan_emit (o : Out) (k : Nat) : chan (emit s o) k = chan s k := rfl
@[simp] theorem chan_memSet (a : Nat) (b : BitVec 8) (k : Nat) : chan (memSet s a b) k = chan s k := rfl
@[simp] theorem oport_put (f : Fld) (v : Nat) (k : Nat) : oport (put s f v) k = oport s k := rfl
@[simp] theorem oport_setBank (n : Nat) (v : Bank) (k : Nat) : oport (setBank s n v) k = oport s k := rfl
@[simp] theorem oport_setChan (n : Nat) (v : Chan) (k : Nat) : oport (setChan s n v) k = oport s k := rfl
@[simp] theorem oport_setCtx (n : Nat) (v : Ctx) (k : Nat) : oport (setCtx s n v) k = oport s k := rfl
@[simp] theorem oport_setQueue (n : Nat) (v : Queue) (k : Nat) : oport (setQueue s n v) k = oport s k := rfl
@[simp] theorem oport_setEngine (n : Nat) (v : Engine) (k : Nat) : oport (setEngine s n v) k = oport s k := rfl
@[simp] theorem oport_setJob (n : Nat) (v : Job) (k : Nat) : oport (setJob s n v) k = oport s k := rfl
@[simp] theorem oport_setLink (n : Nat) (v : Link) (k : Nat) : oport (setLink s n v) k = oport s k := rfl
@[simp] theorem oport_setSession (n : Nat) (v : Option Session) (k : Nat) : oport (setSession s n v) k = oport s k := rfl
@[simp] theorem oport_setProgress (n : Nat) (v : EntProg) (k : Nat) : oport (setProgress s n v) k = oport s k := rfl
@[simp] theorem oport_emit (o : Out) (k : Nat) : oport (emit s o) k = oport s k := rfl
@[simp] theorem oport_memSet (a : Nat) (b : BitVec 8) (k : Nat) : oport (memSet s a b) k = oport s k := rfl
@[simp] theorem ctx_put (f : Fld) (v : Nat) (k : Nat) : ctx (put s f v) k = ctx s k := rfl
@[simp] theorem ctx_setBank (n : Nat) (v : Bank) (k : Nat) : ctx (setBank s n v) k = ctx s k := rfl
@[simp] theorem ctx_setChan (n : Nat) (v : Chan) (k : Nat) : ctx (setChan s n v) k = ctx s k := rfl
@[simp] theorem ctx_setOport (n : Nat) (v : OptPort) (k : Nat) : ctx (setOport s n v) k = ctx s k := rfl
@[simp] theorem ctx_setQueue (n : Nat) (v : Queue) (k : Nat) : ctx (setQueue s n v) k = ctx s k := rfl
@[simp] theorem ctx_setEngine (n : Nat) (v : Engine) (k : Nat) : ctx (setEngine s n v) k = ctx s k := rfl
@[simp] theorem ctx_setJob (n : Nat) (v : Job) (k : Nat) : ctx (setJob s n v) k = ctx s k := rfl
@[simp] theorem ctx_setLink (n : Nat) (v : Link) (k : Nat) : ctx (setLink s n v) k = ctx s k := rfl
@[simp] theorem ctx_setSession (n : Nat) (v : Option Session) (k : Nat) : ctx (setSession s n v) k = ctx s k := rfl
@[simp] theorem ctx_setProgress (n : Nat) (v : EntProg) (k : Nat) : ctx (setProgress s n v) k = ctx s k := rfl
@[simp] theorem ctx_emit (o : Out) (k : Nat) : ctx (emit s o) k = ctx s k := rfl
@[simp] theorem ctx_memSet (a : Nat) (b : BitVec 8) (k : Nat) : ctx (memSet s a b) k = ctx s k := rfl
@[simp] theorem queue_put (f : Fld) (v : Nat) (k : Nat) : queue (put s f v) k = queue s k := rfl
@[simp] theorem queue_setBank (n : Nat) (v : Bank) (k : Nat) : queue (setBank s n v) k = queue s k := rfl
@[simp] theorem queue_setChan (n : Nat) (v : Chan) (k : Nat) : queue (setChan s n v) k = queue s k := rfl
@[simp] theorem queue_setOport (n : Nat) (v : OptPort) (k : Nat) : queue (setOport s n v) k = queue s k := rfl
@[simp] theorem queue_setCtx (n : Nat) (v : Ctx) (k : Nat) : queue (setCtx s n v) k = queue s k := rfl
@[simp] theorem queue_setEngine (n : Nat) (v : Engine) (k : Nat) : queue (setEngine s n v) k = queue s k := rfl
@[simp] theorem queue_setJob (n : Nat) (v : Job) (k : Nat) : queue (setJob s n v) k = queue s k := rfl
@[simp] theorem queue_setLink (n : Nat) (v : Link) (k : Nat) : queue (setLink s n v) k = queue s k := rfl
@[simp] theorem queue_setSession (n : Nat) (v : Option Session) (k : Nat) : queue (setSession s n v) k = queue s k := rfl
@[simp] theorem queue_setProgress (n : Nat) (v : EntProg) (k : Nat) : queue (setProgress s n v) k = queue s k := rfl
@[simp] theorem queue_emit (o : Out) (k : Nat) : queue (emit s o) k = queue s k := rfl
@[simp] theorem queue_memSet (a : Nat) (b : BitVec 8) (k : Nat) : queue (memSet s a b) k = queue s k := rfl
@[simp] theorem engine_put (f : Fld) (v : Nat) (k : Nat) : engine (put s f v) k = engine s k := rfl
@[simp] theorem engine_setBank (n : Nat) (v : Bank) (k : Nat) : engine (setBank s n v) k = engine s k := rfl
@[simp] theorem engine_setChan (n : Nat) (v : Chan) (k : Nat) : engine (setChan s n v) k = engine s k := rfl
@[simp] theorem engine_setOport (n : Nat) (v : OptPort) (k : Nat) : engine (setOport s n v) k = engine s k := rfl
@[simp] theorem engine_setCtx (n : Nat) (v : Ctx) (k : Nat) : engine (setCtx s n v) k = engine s k := rfl
@[simp] theorem engine_setQueue (n : Nat) (v : Queue) (k : Nat) : engine (setQueue s n v) k = engine s k := rfl
@[simp] theorem engine_setJob (n : Nat) (v : Job) (k : Nat) : engine (setJob s n v) k = engine s k := rfl
@[simp] theorem engine_setLink (n : Nat) (v : Link) (k : Nat) : engine (setLink s n v) k = engine s k := rfl
@[simp] theorem engine_setSession (n : Nat) (v : Option Session) (k : Nat) : engine (setSession s n v) k = engine s k := rfl
@[simp] theorem engine_setProgress (n : Nat) (v : EntProg) (k : Nat) : engine (setProgress s n v) k = engine s k := rfl
@[simp] theorem engine_emit (o : Out) (k : Nat) : engine (emit s o) k = engine s k := rfl
@[simp] theorem engine_memSet (a : Nat) (b : BitVec 8) (k : Nat) : engine (memSet s a b) k = engine s k := rfl
@[simp] theorem job_put (f : Fld) (v : Nat) (k : Nat) : job (put s f v) k = job s k := rfl
@[simp] theorem job_setBank (n : Nat) (v : Bank) (k : Nat) : job (setBank s n v) k = job s k := rfl
@[simp] theorem job_setChan (n : Nat) (v : Chan) (k : Nat) : job (setChan s n v) k = job s k := rfl
@[simp] theorem job_setOport (n : Nat) (v : OptPort) (k : Nat) : job (setOport s n v) k = job s k := rfl
@[simp] theorem job_setCtx (n : Nat) (v : Ctx) (k : Nat) : job (setCtx s n v) k = job s k := rfl
@[simp] theorem job_setQueue (n : Nat) (v : Queue) (k : Nat) : job (setQueue s n v) k = job s k := rfl
@[simp] theorem job_setEngine (n : Nat) (v : Engine) (k : Nat) : job (setEngine s n v) k = job s k := rfl
@[simp] theorem job_setLink (n : Nat) (v : Link) (k : Nat) : job (setLink s n v) k = job s k := rfl
@[simp] theorem job_setSession (n : Nat) (v : Option Session) (k : Nat) : job (setSession s n v) k = job s k := rfl
@[simp] theorem job_setProgress (n : Nat) (v : EntProg) (k : Nat) : job (setProgress s n v) k = job s k := rfl
@[simp] theorem job_emit (o : Out) (k : Nat) : job (emit s o) k = job s k := rfl
@[simp] theorem job_memSet (a : Nat) (b : BitVec 8) (k : Nat) : job (memSet s a b) k = job s k := rfl
@[simp] theorem link_put (f : Fld) (v : Nat) (k : Nat) : link (put s f v) k = link s k := rfl
@[simp] theorem link_setBank (n : Nat) (v : Bank) (k : Nat) : link (setBank s n v) k = link s k := rfl
@[simp] theorem link_setChan (n : Nat) (v : Chan) (k : Nat) : link (setChan s n v) k = link s k := rfl
@[simp] theorem link_setOport (n : Nat) (v : OptPort) (k : Nat) : link (setOport s n v) k = link s k := rfl
@[simp] theorem link_setCtx (n : Nat) (v : Ctx) (k : Nat) : link (setCtx s n v) k = link s k := rfl
@[simp] theorem link_setQueue (n : Nat) (v : Queue) (k : Nat) : link (setQueue s n v) k = link s k := rfl
@[simp] theorem link_setEngine (n : Nat) (v : Engine) (k : Nat) : link (setEngine s n v) k = link s k := rfl
@[simp] theorem link_setJob (n : Nat) (v : Job) (k : Nat) : link (setJob s n v) k = link s k := rfl
@[simp] theorem link_setSession (n : Nat) (v : Option Session) (k : Nat) : link (setSession s n v) k = link s k := rfl
@[simp] theorem link_setProgress (n : Nat) (v : EntProg) (k : Nat) : link (setProgress s n v) k = link s k := rfl
@[simp] theorem link_emit (o : Out) (k : Nat) : link (emit s o) k = link s k := rfl
@[simp] theorem link_memSet (a : Nat) (b : BitVec 8) (k : Nat) : link (memSet s a b) k = link s k := rfl
@[simp] theorem session_put (f : Fld) (v : Nat) (k : Nat) : session (put s f v) k = session s k := rfl
@[simp] theorem session_setBank (n : Nat) (v : Bank) (k : Nat) : session (setBank s n v) k = session s k := rfl
@[simp] theorem session_setChan (n : Nat) (v : Chan) (k : Nat) : session (setChan s n v) k = session s k := rfl
@[simp] theorem session_setOport (n : Nat) (v : OptPort) (k : Nat) : session (setOport s n v) k = session s k := rfl
@[simp] theorem session_setCtx (n : Nat) (v : Ctx) (k : Nat) : session (setCtx s n v) k = session s k := rfl
@[simp] theorem session_setQueue (n : Nat) (v : Queue) (k : Nat) : session (setQueue s n v) k = session s k := rfl
@[simp] theorem session_setEngine (n : Nat) (v : Engine) (k : Nat) : session (setEngine s n v) k = session s k := rfl
@[simp] theorem session_setJob (n : Nat) (v : Job) (k : Nat) : session (setJob s n v) k = session s k := rfl
@[simp] theorem session_setLink (n : Nat) (v : Link) (k : Nat) : session (setLink s n v) k = session s k := rfl
@[simp] theorem session_setProgress (n : Nat) (v : EntProg) (k : Nat) : session (setProgress s n v) k = session s k := rfl
@[simp] theorem session_emit (o : Out) (k : Nat) : session (emit s o) k = session s k := rfl
@[simp] theorem session_memSet (a : Nat) (b : BitVec 8) (k : Nat) : session (memSet s a b) k = session s k := rfl
@[simp] theorem progress_put (f : Fld) (v : Nat) (k : Nat) : progress (put s f v) k = progress s k := rfl
@[simp] theorem progress_setBank (n : Nat) (v : Bank) (k : Nat) : progress (setBank s n v) k = progress s k := rfl
@[simp] theorem progress_setChan (n : Nat) (v : Chan) (k : Nat) : progress (setChan s n v) k = progress s k := rfl
@[simp] theorem progress_setOport (n : Nat) (v : OptPort) (k : Nat) : progress (setOport s n v) k = progress s k := rfl
@[simp] theorem progress_setCtx (n : Nat) (v : Ctx) (k : Nat) : progress (setCtx s n v) k = progress s k := rfl
@[simp] theorem progress_setQueue (n : Nat) (v : Queue) (k : Nat) : progress (setQueue s n v) k = progress s k := rfl
@[simp] theorem progress_setEngine (n : Nat) (v : Engine) (k : Nat) : progress (setEngine s n v) k = progress s k := rfl
@[simp] theorem progress_setJob (n : Nat) (v : Job) (k : Nat) : progress (setJob s n v) k = progress s k := rfl
@[simp] theorem progress_setLink (n : Nat) (v : Link) (k : Nat) : progress (setLink s n v) k = progress s k := rfl
@[simp] theorem progress_setSession (n : Nat) (v : Option Session) (k : Nat) : progress (setSession s n v) k = progress s k := rfl
@[simp] theorem progress_emit (o : Out) (k : Nat) : progress (emit s o) k = progress s k := rfl
@[simp] theorem progress_memSet (a : Nat) (b : BitVec 8) (k : Nat) : progress (memSet s a b) k = progress s k := rfl
@[simp] theorem memGet_put (f : Fld) (v : Nat) (k : Nat) : memGet (put s f v) k = memGet s k := rfl
@[simp] theorem memGet_setBank (n : Nat) (v : Bank) (k : Nat) : memGet (setBank s n v) k = memGet s k := rfl
@[simp] theorem memGet_setChan (n : Nat) (v : Chan) (k : Nat) : memGet (setChan s n v) k = memGet s k := rfl
@[simp] theorem memGet_setOport (n : Nat) (v : OptPort) (k : Nat) : memGet (setOport s n v) k = memGet s k := rfl
@[simp] theorem memGet_setCtx (n : Nat) (v : Ctx) (k : Nat) : memGet (setCtx s n v) k = memGet s k := rfl
@[simp] theorem memGet_setQueue (n : Nat) (v : Queue) (k : Nat) : memGet (setQueue s n v) k = memGet s k := rfl
@[simp] theorem memGet_setEngine (n : Nat) (v : Engine) (k : Nat) : memGet (setEngine s n v) k = memGet s k := rfl
@[simp] theorem memGet_setJob (n : Nat) (v : Job) (k : Nat) : memGet (setJob s n v) k = memGet s k := rfl
@[simp] theorem memGet_setLink (n : Nat) (v : Link) (k : Nat) : memGet (setLink s n v) k = memGet s k := rfl
@[simp] theorem memGet_setSession (n : Nat) (v : Option Session) (k : Nat) : memGet (setSession s n v) k = memGet s k := rfl
@[simp] theorem memGet_setProgress (n : Nat) (v : EntProg) (k : Nat) : memGet (setProgress s n v) k = memGet s k := rfl
@[simp] theorem memGet_emit (o : Out) (k : Nat) : memGet (emit s o) k = memGet s k := rfl

/-! ### Reads after writes -/

@[simp] theorem bank_setBank_same (n : Nat) (v : Bank) : bank (setBank s n v) n = v := tget_tset_same ..
theorem bank_setBank_ne {n k : Nat} (v : Bank) (h : k ≠ n) : bank (setBank s n v) k = bank s k := tget_tset_ne _ _ _ _ h
@[simp] theorem chan_setChan_same (n : Nat) (v : Chan) : chan (setChan s n v) n = v := tget_tset_same ..
theorem chan_setChan_ne {n k : Nat} (v : Chan) (h : k ≠ n) : chan (setChan s n v) k = chan s k := tget_tset_ne _ _ _ _ h
@[simp] theorem oport_setOport_same (n : Nat) (v : OptPort) : oport (setOport s n v) n = v := tget_tset_same ..
theorem oport_setOport_ne {n k : Nat} (v : OptPort) (h : k ≠ n) : oport (setOport s n v) k = oport s k := tget_tset_ne _ _ _ _ h
@[simp] theorem ctx_setCtx_same (n : Nat) (v : Ctx) : ctx (setCtx s n v) n = v := tget_tset_same ..
theorem ctx_setCtx_ne {n k : Nat} (v : Ctx) (h : k ≠ n) : ctx (setCtx s n v) k = ctx s k := tget_tset_ne _ _ _ _ h
@[simp] theorem queue_setQueue_same (n : Nat) (v : Queue) : queue (setQueue s n v) n = v := tget_tset_same ..
theorem queue_setQueue_ne {n k : Nat} (v : Queue) (h : k ≠ n) : queue (setQueue s n v) k = queue s k := tget_tset_ne _ _ _ _ h
@[simp] theorem engine_setEngine_same (n : Nat) (v : Engine) : engine (setEngine s n v) n = v := tget_tset_same ..
theorem engine_setEngine_ne {n k : Nat} (v : Engine) (h : k ≠ n) : engine (setEngine s n v) k = engine s k := tget_tset_ne _ _ _ _ h
@[simp] theorem job_setJob_same (n : Nat) (v : Job) : job (setJob s n v) n = v := tget_tset_same ..
theorem job_setJob_ne {n k : Nat} (v : Job) (h : k ≠ n) : job (setJob s n v) k = job s k := tget_tset_ne _ _ _ _ h
@[simp] theorem link_setLink_same (n : Nat) (v : Link) : link (setLink s n v) n = v := tget_tset_same ..
theorem link_setLink_ne {n k : Nat} (v : Link) (h : k ≠ n) : link (setLink s n v) k = link s k := tget_tset_ne _ _ _ _ h
@[simp] theorem session_setSession_same (n : Nat) (v : Option Session) : session (setSession s n v) n = v := tget_tset_same ..
theorem session_setSession_ne {n k : Nat} (v : Option Session) (h : k ≠ n) : session (setSession s n v) k = session s k := tget_tset_ne _ _ _ _ h
@[simp] theorem progress_setProgress_same (n : Nat) (v : EntProg) : progress (setProgress s n v) n = v := tget_tset_same ..
theorem progress_setProgress_ne {n k : Nat} (v : EntProg) (h : k ≠ n) : progress (setProgress s n v) k = progress s k := tget_tset_ne _ _ _ _ h
@[simp] theorem memGet_memSet_same (n : Nat) (v : BitVec 8) : memGet (memSet s n v) n = v := tget_tset_same ..
theorem memGet_memSet_ne {n k : Nat} (v : BitVec 8) (h : k ≠ n) : memGet (memSet s n v) k = memGet s k := tget_tset_ne _ _ _ _ h

/-- A field's key tells it apart: equal keys are the same page, offset, instance and low bit, within their ranges. -/
theorem code_ne {f g : Fld} (h : f.code ≠ g.code) : f ≠ g := fun e => h (e ▸ rfl)

/-- A field that was written reads as written, modulo its width. -/
@[simp] theorem get_put_same (f : Fld) (v : Nat) : get (put s f v) f = v % 2 ^ f.width := tget_tset_same ..

/-- A field keeps its value while another one is written. -/
theorem get_put_ne {f g : Fld} (v : Nat) (h : g.code ≠ f.code) : get (put s f v) g = get s g := tget_tset_ne _ _ _ _ h

/-! ### Every register write is a `put` -/

theorem putB_eq (f : Fld) (b : Bool) : putB s f b = put s f b.toNat := rfl
theorem bumpMod_eq (f : Fld) : bumpMod s f = put s f (get s f + 1) := rfl
theorem bumpSat_eq (f : Fld) : bumpSat s f = put s f (min (get s f + 1) (2 ^ f.width - 1)) := rfl

@[simp] theorem puts_nil : puts s [] = s := rfl
@[simp] theorem puts_cons (f : Fld) (v : Nat) (l : List (Fld × Nat)) : puts s ((f, v) :: l) = puts (put s f v) l := rfl

end Sys2Proof.Machine
end

