-- ==== Sys2Proof/Laws/Flags.lean ====
section
/-! SUPPORT. What raising an event, entering a block state and recording a rejection do, said once: the bits that become set, and what
stays. -/

namespace Sys2Proof.Machine

variable (s : State)

/-! ### Bits -/

theorem bit_eq_testBit (v i : Nat) : bit v i = v.testBit i := by
  rw [bit, Nat.testBit_eq_decide_div_mod_eq]
  rcases Nat.mod_two_eq_zero_or_one (v / 2 ^ i) with h | h <;> simp [h]

/-- A bit that is set in a field of `w` bits stays set when another one is. -/
theorem bit_or_mod {v i j w : Nat} (hw : i < w) (h : bit v i = true ∨ i = j) : bit ((v ||| 2 ^ j) % 2 ^ w) i = true := by
  rw [bit_eq_testBit, Nat.testBit_mod_two_pow]
  rcases h with h | rfl
  · rw [bit_eq_testBit] at h
    simp [hw, h, Nat.testBit_or]
  · simp [hw, Nat.testBit_or]

theorem get_putBit_same (f : Fld) (i : Nat) : get (putBit s f i true) f = (get s f ||| 2 ^ i) % 2 ^ f.width := by simp [putBit]

theorem get_putBit_ne {f g : Fld} (i : Nat) (b : Bool) (h : g.code ≠ f.code) : get (putBit s f i b) g = get s g :=
  get_put_ne _ _ h

/-! ### The log -/

@[simp] theorem get_noticeDue (page : Nat) (f : Fld) : get (noticeDue s page) f = get s f := rfl

@[simp] theorem get_logPush (page code src : Nat) (data : List Int) (f : Fld) : get (logPush s page code src data) f = get s f := rfl
@[simp] theorem get_logAgain (f : Fld) : get (logAgain s) f = get s f := by
  cases h : s.log with
  | nil => simp [logAgain, h]
  | cons e l => simp only [logAgain, h]; rfl

/-- Logging writes no register but, where the ring wraps, PEVT of page MGT. -/
theorem get_logWith {data : List Int} {page code src : Nat} {f : Fld} (h : f.code ≠ (hPEVT pMGT).code) :
    get (logWith data s page code src) f = get s f := by
  unfold logWith
  split
  · simp
  · dsimp only
    split
    · simp
    · split <;> simp only [get_noticeDue, get_logPush, get_putBit_ne _ _ _ h]

theorem get_logEv {page code src : Nat} {f : Fld} (h : f.code ≠ (hPEVT pMGT).code) : get (logEv s page code src) f = get s f :=
  get_logWith s h

/-- Logging clears no bit of any field of 32 bits. -/
theorem bit_logWith {data : List Int} {page code src i : Nat} (p : Nat) (hi : i < 32) (h : bit (get s (hPEVT p)) i = true) :
    bit (get (logWith data s page code src) (hPEVT p)) i = true := by
  by_cases hc : (hPEVT p).code = (hPEVT pMGT).code
  · have e : hPEVT p = hPEVT pMGT := by
      simp only [hPEVT, Fld.code] at hc
      have : p = pMGT := by simp only [pMGT] at *; omega
      rw [this]
    rw [e] at h ⊢
    unfold logWith
    split
    · simpa using h
    · dsimp only
      split
      · simpa using h
      · have e : bit (get (logPush (putBit (logPush s page code src data) (hPEVT pMGT) 11 true) pMGT 11 srcHW []) (hPEVT pMGT)) i = true := by
          rw [get_logPush, get_putBit_same]
          exact bit_or_mod hi (.inl (by simpa using h))
        split
        · rwa [get_noticeDue]
        · exact e
  · rwa [get_logWith _ hc]

theorem bit_logEv {page code src i : Nat} (p : Nat) (hi : i < 32) (h : bit (get s (hPEVT p)) i = true) :
    bit (get (logEv s page code src) (hPEVT p)) i = true := bit_logWith s p hi h

/-! ### Events (R35) -/

/-- Raising an event writes no register but PEVT of its page and, through the log, of page MGT. -/
theorem get_raiseAs {src page i : Nat} {f : Fld} (h : f.code ≠ (hPEVT page).code) (hm : f.code ≠ (hPEVT pMGT).code) :
    get (raiseAs src s page i) f = get s f := by
  unfold raiseAs
  split
  · rfl
  · dsimp only
    split <;> simp only [get_noticeDue, get_logEv _ hm, get_putBit_ne _ _ _ h]

theorem get_raise {page i : Nat} {f : Fld} (h : f.code ≠ (hPEVT page).code) (hm : f.code ≠ (hPEVT pMGT).code) :
    get (raise s page i) f = get s f := get_raiseAs s h hm

/-- A raised event bit is set. -/
theorem bit_raiseAs {src page i : Nat} (hi : i < 32) : bit (get (raiseAs src s page i) (hPEVT page)) i = true := by
  unfold raiseAs
  split
  · assumption
  · have hp : bit (get (putBit s (hPEVT page) i true) (hPEVT page)) i = true := by
      rw [get_putBit_same, show (hPEVT page).width = 32 from rfl]
      exact bit_or_mod hi (Or.inr (Eq.refl i))
    dsimp only
    split
    · exact bit_logEv _ _ hi hp
    · exact bit_logEv _ _ hi hp

theorem bit_raise {page i : Nat} (hi : i < 32) : bit (get (raise s page i) (hPEVT page)) i = true := bit_raiseAs s hi

/-- Raising an event clears no event bit. -/
theorem bit_raiseAs_keeps {src page i j p : Nat} (hj : j < 32) (h : bit (get s (hPEVT p)) j = true) :
    bit (get (raiseAs src s page i) (hPEVT p)) j = true := by
  unfold raiseAs
  split
  · exact h
  · have hp : bit (get (putBit s (hPEVT page) i true) (hPEVT p)) j = true := by
      by_cases hc : (hPEVT p).code = (hPEVT page).code
      · have e : p = page := by simp only [hPEVT, Fld.code] at hc; omega
        subst e
        rw [get_putBit_same, show (hPEVT p).width = 32 from rfl]
        exact bit_or_mod hj (.inl h)
      · rwa [get_putBit_ne _ _ _ hc]
    dsimp only
    split
    · exact bit_logEv _ _ hj hp
    · exact bit_logEv _ _ hj hp

theorem bit_raise_keeps {page i j p : Nat} (hj : j < 32) (h : bit (get s (hPEVT p)) j = true) :
    bit (get (raise s page i) (hPEVT p)) j = true := bit_raiseAs_keeps s hj h

/-! ### Block states (R38) -/

theorem code_hSTATE_ne_hPEVT (p q : Nat) : (hSTATE p).code ≠ (hPEVT q).code := by
  simp only [hSTATE, hPEVT, Fld.code]; omega

@[simp] theorem pstate_raise (page i p : Nat) : pstate (raise s page i) p = pstate s p :=
  get_raise s (code_hSTATE_ne_hPEVT _ _) (code_hSTATE_ne_hPEVT _ _)

/-- A block enters the state it is told to. -/
theorem pstate_setPState_same (page v : Nat) (h : v < 16) : pstate (setPState s page v) page = v := by
  unfold setPState
  split
  · assumption
  · dsimp only
    have : pstate (put s (hSTATE page) v) page = v := by
      simpa [pstate, get_put_same, Fld.width, hSTATE] using Nat.mod_eq_of_lt h
    split <;> simp [this]

/-- A block's state is no other's. -/
theorem pstate_setPState_ne {page p : Nat} (v : Nat) (h : p ≠ page) : pstate (setPState s page v) p = pstate s p := by
  have hc : (hSTATE p).code ≠ (hSTATE page).code := by simp only [hSTATE, Fld.code]; omega
  have : pstate (put s (hSTATE page) v) p = pstate s p := get_put_ne _ _ hc
  unfold setPState
  split
  · rfl
  · dsimp only
    split <;> simp [this]

/-- Entering a block state writes no register but STATE of its page and event bits. -/
theorem get_setPState {page v : Nat} {f : Fld} (hs : f.code ≠ (hSTATE page).code) (h : f.code ≠ (hPEVT page).code)
    (hm : f.code ≠ (hPEVT pMGT).code) : get (setPState s page v) f = get s f := by
  unfold setPState
  split
  · rfl
  · dsimp only
    split <;> simp only [get_raise _ h hm, get_put_ne _ _ hs]

/-- A block that changes its state raises STCHG. -/
theorem bit_setPState_stchg {page v : Nat} (h : pstate s page ≠ v) : bit (get (setPState s page v) (hPEVT page)) 1 = true := by
  unfold setPState
  rw [if_neg h]
  dsimp only
  split
  · exact bit_raise_keeps _ (by omega) (bit_raise _ (by omega))
  · exact bit_raise _ (by omega)

end Sys2Proof.Machine
end

