-- ==== Sys2Proof/Laws/Memory.lean ====
section
/-! SUPPORT. CANVAS bytes: a read after a write, and the canonical form that every write keeps. -/

namespace Sys2Proof.Machine

/-! ### The canonical form -/

theorem memWf_iff (m : List Host.Cell) : memWf m = true ↔ rising m = true ∧ ∀ e ∈ m, e.2 ≠ blankByte := by
  simp [memWf, blankByte]

theorem memWf_nil : memWf [] = true := rfl

/-- Writing one byte keeps the canonical form. -/
theorem memWf_memSet {s : State} (a : Nat) (b : BitVec 8) (h : memWf s.cnv.mem = true) : memWf (memSet s a b).cnv.mem = true := by
  rw [memWf_iff] at h ⊢
  exact ⟨rising_tset _ _ _ _ h.1, tset_no_default _ _ _ _ h.2⟩

theorem memWf_memBytes {s : State} (a : Nat) (bs : List (BitVec 8)) (h : memWf s.cnv.mem = true) :
    memWf (memBytes s a bs).cnv.mem = true := by
  induction bs generalizing s a with
  | nil => exact h
  | cons b t ih => rw [memBytes]; exact ih _ (memWf_memSet a b h)

theorem memWf_memPut {s : State} (a : Nat) (w : Word) (h : memWf s.cnv.mem = true) : memWf (memPut s a w).cnv.mem = true :=
  memWf_memBytes _ _ h

theorem memWf_memPuts {s : State} (a : Nat) (ws : List Word) (h : memWf s.cnv.mem = true) :
    memWf (memPuts s a ws).cnv.mem = true := memWf_memBytes _ _ h

theorem memWf_writePieces {s : State} (ps : List (Nat × Nat)) (ws : List Word) (h : memWf s.cnv.mem = true) :
    memWf (writePieces s ps ws).cnv.mem = true := by
  induction ps generalizing s ws with
  | nil => exact h
  | cons p t ih => exact ih _ (memWf_memPuts _ _ h)

/-! ### Reading -/

/-- Writing bytes leaves every byte outside them alone. -/
theorem memGet_memBytes_out (s : State) {a c : Nat} (bs : List (BitVec 8)) (h : c < a ∨ a + bs.length ≤ c) :
    memGet (memBytes s a bs) c = memGet s c := by
  induction bs generalizing s a with
  | nil => rfl
  | cons b t ih =>
    simp only [List.length_cons] at h
    rw [memBytes, ih _ (by omega), memGet_memSet_ne _ _ (by omega)]

/-- Bytes read back as written. -/
theorem memGet_memBytes_in (s : State) (a i : Nat) (bs : List (BitVec 8)) (h : i < bs.length) :
    memGet (memBytes s a bs) (a + i) = bs[i] := by
  induction bs generalizing s a i with
  | nil => simp at h
  | cons b t ih =>
    rw [memBytes]
    cases i with
    | zero => rw [memGet_memBytes_out _ _ (by omega), Nat.add_zero, memGet_memSet_same]; rfl
    | succ j =>
      rw [show a + (j + 1) = a + 1 + j by omega, ih _ _ _ (by simpa using h)]
      rfl

/-- Writing a word leaves every byte outside its four alone. -/
theorem memGet_memPut_out (s : State) {a c : Nat} (w : Word) (h : c < a ∨ a + 4 ≤ c) : memGet (memPut s a w) c = memGet s c :=
  memGet_memBytes_out _ _ h

/-- The four bytes of a word are the word. -/
theorem wordBytes_append (w : Word) :
    w.extractLsb' 24 8 ++ w.extractLsb' 16 8 ++ w.extractLsb' 8 8 ++ w.extractLsb' 0 8 = w := by
  apply BitVec.eq_of_getLsbD_eq
  intro i hi
  simp only [BitVec.getLsbD_append, BitVec.getLsbD_extractLsb']
  by_cases h8 : i < 8
  · simp [h8]
  · by_cases h16 : i < 16
    · simp [h8, show i - 8 < 8 by omega, show 8 + (i - 8) = i by omega]
    · by_cases h24 : i < 24
      · simp [h8, show ¬ i - 8 < 8 by omega, show i - 8 - 8 < 8 by omega, show 16 + (i - 8 - 8) = i by omega]
      · simp [h8, show ¬ i - 8 < 8 by omega, show ¬ i - 8 - 8 < 8 by omega, show i - 8 - 8 - 8 < 8 by omega,
          show 24 + (i - 8 - 8 - 8) = i by omega]

/-- A word reads back as written. -/
theorem memWord_memPut_same (s : State) (a : Nat) (w : Word) : memWord (memPut s a w) a = w := by
  have h0 := memGet_memBytes_in s a 0 (wordBytes w) (by simp [wordBytes])
  have h1 := memGet_memBytes_in s a 1 (wordBytes w) (by simp [wordBytes])
  have h2 := memGet_memBytes_in s a 2 (wordBytes w) (by simp [wordBytes])
  have h3 := memGet_memBytes_in s a 3 (wordBytes w) (by simp [wordBytes])
  rw [Nat.add_zero] at h0
  rw [memWord, memPut, h0, h1, h2, h3]
  exact wordBytes_append w

theorem length_flatMap_wordBytes (ws : List Word) : (ws.flatMap wordBytes).length = 4 * ws.length := by
  induction ws with
  | nil => rfl
  | cons w t ih => simp only [List.flatMap_cons, List.length_append, ih, List.length_cons]; simp [wordBytes]; omega

/-- Writing words leaves every byte outside them alone. -/
theorem memGet_memPuts_out (s : State) {a c : Nat} (ws : List Word) (h : c < a ∨ a + 4 * ws.length ≤ c) :
    memGet (memPuts s a ws) c = memGet s c :=
  memGet_memBytes_out _ _ (by rwa [length_flatMap_wordBytes])

/-- CANVAS writes touch no register. -/
@[simp] theorem get_memBytes (s : State) (a : Nat) (bs : List (BitVec 8)) (f : Fld) : get (memBytes s a bs) f = get s f := by
  induction bs generalizing s a with
  | nil => rfl
  | cons b t ih => rw [memBytes, ih, get_memSet]

@[simp] theorem get_memPut (s : State) (a : Nat) (w : Word) (f : Fld) : get (memPut s a w) f = get s f := get_memBytes ..

@[simp] theorem get_memPuts (s : State) (a : Nat) (ws : List Word) (f : Fld) : get (memPuts s a ws) f = get s f :=
  get_memBytes ..

end Sys2Proof.Machine
end

