-- ==== Sys2Proof/Tests/Slice0.lean ====
section
/-! SUPPORT. Tests: ill-formed commands are refused by `Instr.wf`, and for every statement with hypotheses a state and operands that meet
them. -/

namespace Sys2Proof.Tests

set_option Elab.async false

open Sys2Proof.Machine

/-- A state with some fields set, from reset. -/
def st (l : List (Fld × Nat)) : State := puts State.reset l

/-- The next state of an outcome. -/
def nextOf : Host.Outcome State Fault Refusal → Option State
  | .next t => some t
  | .fault _ => none
  | .refused _ => none

/-- Everything powered. -/
def pwr : State := st [(PWR.PDST_PG, 0x1FFFF)]

/-- A powered hub with FLT up and bank `n` in the given state, its input 2 measuring voltage. -/
def bankIn (n v : Nat) : State :=
  puts pwr [(hSTATE pFLT, 1), (hSTATE pEXC, 1), (hSTATE (bankPage n), v), (BNK.CHCFG_MODE n 2, 1)]


/-- One operand outside its range each: refused (1). -/
theorem test_ill_formed_refused_1 :
    [(Instr.writeBurst .mgp 0 [] true).wf,
     (Instr.writeBurst .mgp 0 (List.replicate 257 0#32) true).wf,
     (Instr.readBurst .mgp 0 ⟨0, [], false⟩).wf,
     (Instr.readBurst .mgp 0 ⟨257, [], false⟩).wf,
     (Instr.notice 8 0).wf,
     (Instr.notice 0 4096).wf,
     (Instr.softReset .mgp 128).wf,
     (Instr.enable .mgp 128 true).wf,
     (Instr.triggerEdge 8 true 0).wf,
     (Instr.triggerWindowEnd 64).wf,
     (Instr.trgPulseEnd 8).wf,
     (Instr.openPoint 256).wf,
     (Instr.interpolatedSlot 64 () () ()).wf,
     (Instr.swapPoint 256).wf,
     (Instr.optpPoint 256).wf,
     (Instr.ckptPoint 256).wf,
     (Instr.tableMemoryError true 256).wf,
     (Instr.bcmdStart .mgp 49).wf,
     (Instr.bcmdStop .mgp 49).wf,
     (Instr.bcmdTestin .mgp 49).wf,
     (Instr.bcmdTestout .mgp 49).wf,
     (Instr.routingDischarge 49).wf,
     (Instr.makeStep 49).wf,
     (Instr.settleEnd 784 true).wf,
     (Instr.blankingWindow 48).wf,
     (Instr.blankingEnd 48 []).wf,
     (Instr.blankingEnd 0 (List.replicate 17 ⟨0, 0⟩)).wf,
     (Instr.qopen 48 0 0).wf,
     (Instr.qopen 0 4 0).wf,
     (Instr.qopenClear 48 0).wf].all (· == false) = true := by
  decide +kernel

/-- One operand outside its range each: refused (2). -/
theorem test_ill_formed_refused_2 :
    [(Instr.qopenClear 0 4).wf,
     (Instr.ovr 784).wf,
     (Instr.ovrClear 784).wf,
     (Instr.bds 48).wf,
     (Instr.bdsEnd 48).wf,
     (Instr.qilim 48 0).wf,
     (Instr.qilim 0 4).wf,
     (Instr.ilimEnd 48 0).wf,
     (Instr.ilimEnd 0 4).wf,
     (Instr.qidev 48 0).wf,
     (Instr.qidev 0 4).wf,
     (Instr.bankFault 49).wf,
     (Instr.ocmdStart .mgp 16).wf,
     (Instr.ocmdStop .mgp 16).wf,
     (Instr.ocmdClear .mgp 16).wf,
     (Instr.ocmdGclear .mgp 16).wf,
     (Instr.boostReady 16).wf,
     (Instr.pwmPeriod 16 0 0 0 0 0 0).wf,
     (Instr.pmfsLearn 16 true 0).wf,
     (Instr.mondev 16 true).wf,
     (Instr.mondevClear 16 true).wf,
     (Instr.pfault 16 ⟨true, 0, 0⟩).wf,
     (Instr.probe 16).wf,
     (Instr.diagBlind 16).wf,
     (Instr.blindTimeout 16).wf,
     (Instr.selfCheck 2 true [⟨832, 0, 0, 0, 0⟩]).wf,
     (Instr.selfCheck 9 true [⟨832, 0, 0, 0, 0⟩]).wf,
     (Instr.selfCheck 11 true [⟨832, 0, 0, 0, 0⟩]).wf,
     (Instr.selfCheck 10 true [⟨833, 0, 0, 0, 0⟩]).wf,
     (Instr.ecoChange 6).wf].all (· == false) = true := by
  decide +kernel

/-- One operand outside its range each: refused (3). -/
theorem test_ill_formed_refused_3 :
    [(Instr.spareWrite .mgp 49 0 0).wf,
     (Instr.spareWrite .mgp 0 4 0).wf,
     (Instr.spareWrite .mgp 0 0 16).wf,
     (Instr.rotationPhase 49 0).wf,
     (Instr.dieTempUpdate [0]).wf,
     (Instr.frespCommit .mgp 49 0#32).wf,
     (Instr.pathMOutput 784 0 []).wf,
     (Instr.pathESample 0 (List.replicate 785 [])).wf,
     (Instr.tstale 784).wf,
     (Instr.metroCheckpoint 64).wf,
     (Instr.deviceCheckpoint 64).wf,
     (Instr.itemWrite 64).wf,
     (Instr.holdto 64).wf,
     (Instr.pop .mgp 256 true).wf,
     (Instr.flushed 63).wf,
     (Instr.flushed 68).wf,
     (Instr.itemTake 64 []).wf,
     (Instr.blockRelease 64 true).wf,
     (Instr.cdcmdEclear .mgp 4).wf,
     (Instr.cdcmdEtest .mgp 4).wf,
     (Instr.etestDone 4 true).wf,
     (Instr.ectlByp .mgp 16).wf,
     (Instr.engineTest 4 true).wf,
     (Instr.dcmdSubmit .mgp [0#32]).wf,
     (Instr.dcmdResume .mgp 16).wf,
     (Instr.dcmdAbort .mgp 16).wf,
     (Instr.dcmdRelease .mgp 16).wf,
     (Instr.jobStart 16).wf,
     (Instr.ddone 16).wf,
     (Instr.dstop 16).wf].all (· == false) = true := by
  decide +kernel

/-- One operand outside its range each: refused (4). -/
theorem test_ill_formed_refused_4 :
    [(Instr.derr 16 ⟨0, []⟩).wf,
     (Instr.ack 2 0 0 0 0).wf,
     (Instr.ack 0 0 4 0 0).wf,
     (Instr.ack 0 0 0 64 0).wf,
     (Instr.ack 0 0 0 0 268435456).wf,
     (Instr.resend 2 0 0 0 0).wf,
     (Instr.resend 0 0 4 0 0).wf,
     (Instr.resend 0 0 0 64 0).wf,
     (Instr.resend 0 0 0 0 268435456).wf,
     (Instr.gapRecordStore 64).wf,
     (Instr.increment .mgp 68719476736).wf,
     (Instr.sourceQualify 0).wf,
     (Instr.sourceQualify 4).wf,
     (Instr.sourceLost 0).wf,
     (Instr.sourceLost 4).wf,
     (Instr.ptpRx 4 0).wf,
     (Instr.ptpTx ⟨4, 0, 0, 0, 0, [], [0, 0, 0, 0, 0, 0, 0, 0], [0, 0, 0, 0, 0, 0, 0, 0, 0, 0, 0, 0, 0, 0, 0, 0, 0, 0], []⟩ 0 0).wf,
     (Instr.ptpTx ⟨0, 281474976710656, 0, 0, 0, [], [0, 0, 0, 0, 0, 0, 0, 0], [0, 0, 0, 0, 0, 0, 0, 0, 0, 0, 0, 0, 0, 0, 0, 0, 0, 0], []⟩ 0 0).wf,
     (Instr.ptpTx ⟨0, 0, 4294967296, 0, 0, [], [0, 0, 0, 0, 0, 0, 0, 0], [0, 0, 0, 0, 0, 0, 0, 0, 0, 0, 0, 0, 0, 0, 0, 0, 0, 0], []⟩ 0 0).wf,
     (Instr.ptpTx ⟨0, 0, 0, 65536, 0, [], [0, 0, 0, 0, 0, 0, 0, 0], [0, 0, 0, 0, 0, 0, 0, 0, 0, 0, 0, 0, 0, 0, 0, 0, 0, 0], []⟩ 0 0).wf,
     (Instr.ptpTx ⟨0, 0, 0, 0, 65536, [], [0, 0, 0, 0, 0, 0, 0, 0], [0, 0, 0, 0, 0, 0, 0, 0, 0, 0, 0, 0, 0, 0, 0, 0, 0, 0], []⟩ 0 0).wf,
     (Instr.ecfgMode .mgp 4).wf,
     (Instr.lcmdTrain .mgp 2).wf,
     (Instr.lcmdStop .mgp 2).wf,
     (Instr.lcmdTest .mgp 2).wf,
     (Instr.lcmdLretry .mgp 2).wf,
     (Instr.trainingFrame 3 0 (List.replicate 224 3)).wf,
     (Instr.trainingFrame 0 4 (List.replicate 224 3)).wf,
     (Instr.trainingFrame 0 0 (List.replicate 223 3)).wf,
     (Instr.fcokTimeout 3).wf].all (· == false) = true := by
  decide +kernel

/-- One operand outside its range each: refused (5). -/
theorem test_ill_formed_refused_5 :
    [(Instr.rrdy 3).wf,
     (Instr.linkup 3 ⟨15, 15⟩ 0).wf,
     (Instr.linkup 0 ⟨16, 0⟩ 0).wf,
     (Instr.linkup 0 ⟨0, 16⟩ 0).wf,
     (Instr.trnfail 3).wf,
     (Instr.bringupRetry 3).wf,
     (Instr.codeword 3 0 (List.replicate 2720 3)).wf,
     (Instr.codeword 0 4 (List.replicate 2720 3)).wf,
     (Instr.codeword 0 0 []).wf,
     (Instr.codeword 0 0 (List.replicate 2719 3)).wf,
     (Instr.zlpFrame 3 0 0 []).wf,
     (Instr.zlpFrame 0 4 0 []).wf,
     (Instr.zlpFrame 0 0 4096 []).wf,
     (Instr.caps 3 0 0).wf,
     (Instr.time 3 0 0 0 0).wf,
     (Instr.time 0 3 0 0 0).wf,
     (Instr.time 0 0 2 0 0).wf,
     (Instr.time 0 0 0 16 0).wf,
     (Instr.transportNop 3).wf,
     (Instr.linkNop 3).wf,
     (Instr.lack 3 0).wf,
     (Instr.lack 0 4096).wf,
     (Instr.nak 3 0).wf,
     (Instr.nak 0 4096).wf,
     (Instr.ldrop 3 0 true 0).wf,
     (Instr.ldrop 0 16 true 0).wf,
     (Instr.ldrop 0 0 true 4096).wf,
     (Instr.ladd 3 0).wf,
     (Instr.ladd 0 16).wf,
     (Instr.lmask 3 0 true).wf].all (· == false) = true := by
  decide +kernel

/-- One operand outside its range each: refused (6). -/
theorem test_ill_formed_refused_6 :
    [(Instr.lmask 0 16 true).wf,
     (Instr.ltrn 3 0 0 0).wf,
     (Instr.ltrn 0 4 0 0).wf,
     (Instr.ltrn 0 0 1024 0).wf,
     (Instr.ltrn 0 0 0 64).wf,
     (Instr.clklost 3).wf,
     (Instr.clkfallback 3).wf,
     (Instr.lnkto 3).wf,
     (Instr.lanedn 3 0 0).wf,
     (Instr.lanedn 0 4 0).wf,
     (Instr.lanedn 0 0 4096).wf,
     (Instr.laneReady 3 0).wf,
     (Instr.laneReady 0 4).wf,
     (Instr.retrainTimeout 3 0).wf,
     (Instr.retrainTimeout 0 4).wf,
     (Instr.margin 3 [0, 0, 0, 0]).wf,
     (Instr.margin 0 [0]).wf,
     (Instr.quiet 3).wf,
     (Instr.quietExit 3).wf,
     (Instr.quietRestore 3).wf,
     (Instr.lanePllFail 3).wf,
     (Instr.authorityFrame 2 0 0 0 ⟨true, []⟩).wf,
     (Instr.beacon 2 0 0 0 0).wf,
     (Instr.coll 2 0 true).wf,
     (Instr.topo 2 0 0 0).wf,
     (Instr.credit 2 0 0).wf,
     (Instr.creditSend 2).wf,
     (Instr.tdist 2 0 0).wf,
     (Instr.tdistSend 2).wf,
     (Instr.report 2 0 0 0 0).wf].all (· == false) = true := by
  decide +kernel

/-- One operand outside its range each: refused (7). -/
theorem test_ill_formed_refused_7 :
    [(Instr.cand 2 0 0 0).wf,
     (Instr.tkeep 2 0 0 0).wf,
     (Instr.pairingTimeout [(192, 0)]).wf,
     (Instr.pairingTimeout [(0, 65536)]).wf,
     (Instr.role 7 0 0).wf,
     (Instr.role 0 4 0).wf,
     (Instr.fail 16).wf,
     (Instr.ownFailure 16).wf,
     (Instr.summary 0 (List.replicate 785 (0, 0))).wf,
     (Instr.pcmdRestart .mgp 4).wf,
     (Instr.watchdog 4).wf,
     (Instr.sensorSample [0] (List.replicate 12 0) 0 0 0 0 0).wf,
     (Instr.sensorSample [0, 0, 0, 0, 0, 0] [0] 0 0 0 0 0).wf,
     (Instr.confirm 8 true).wf,
     (Instr.sessfail 8).wf,
     (Instr.subscribe 8 0 0 0).wf,
     (Instr.subscribe 0 0 4096 0).wf,
     (Instr.subscribe 0 0 0 256).wf,
     (Instr.keepAlive 8 0).wf,
     (Instr.close 8 0).wf,
     (Instr.sessionTimeout 8).wf,
     (Instr.scmdClose .mgp 8).wf,
     (Instr.ucmdOpen .mgp 4294967296).wf,
     (Instr.regionErased 4).wf,
     (Instr.containerWritten 4).wf,
     (Instr.readback 4 true).wf,
     (Instr.boot 4 ⟨true, ⟨[], [], []⟩⟩ []).wf,
     (Instr.pllLoss 3).wf,
     (Instr.rail 12).wf,
     (Instr.portchg 2 true).wf].all (· == false) = true := by
  decide +kernel

/-- One operand outside its range each: refused (8). -/
theorem test_ill_formed_refused_8 :
    [(Instr.inrushEnd 2).wf,
     (Instr.domainPowerGood 17).wf,
     (Instr.hbtoExpiry 2 true).wf].all (· == false) = true := by
  decide +kernel

/-- Every bounded operand at its highest value: well formed (1). -/
theorem test_well_formed_at_the_bounds_1 :
    [(Instr.writeBurst .mgp 0 [0#32] true).wf,
     (Instr.readBurst .mgp 0 ⟨256, [], false⟩).wf,
     (Instr.notice 7 4095).wf,
     (Instr.softReset .mgp 127).wf,
     (Instr.enable .mgp 127 true).wf,
     (Instr.triggerEdge 7 true 0).wf,
     (Instr.triggerWindowEnd 63).wf,
     (Instr.trgPulseEnd 7).wf,
     (Instr.openPoint 255).wf,
     (Instr.interpolatedSlot 63 () () ()).wf,
     (Instr.swapPoint 255).wf,
     (Instr.optpPoint 255).wf,
     (Instr.ckptPoint 255).wf,
     (Instr.tableMemoryError true 255).wf,
     (Instr.bcmdStart .mgp 48).wf,
     (Instr.bcmdStop .mgp 48).wf,
     (Instr.bcmdTestin .mgp 48).wf,
     (Instr.bcmdTestout .mgp 48).wf,
     (Instr.routingDischarge 48).wf,
     (Instr.makeStep 48).wf,
     (Instr.settleEnd 783 true).wf,
     (Instr.blankingWindow 47).wf,
     (Instr.blankingEnd 47 []).wf,
     (Instr.qopen 47 3 0).wf,
     (Instr.qopenClear 47 3).wf,
     (Instr.ovr 783).wf,
     (Instr.ovrClear 783).wf,
     (Instr.bds 47).wf,
     (Instr.bdsEnd 47).wf,
     (Instr.qilim 47 3).wf,
     (Instr.ilimEnd 47 3).wf,
     (Instr.qidev 47 3).wf,
     (Instr.bankFault 48).wf,
     (Instr.ocmdStart .mgp 15).wf,
     (Instr.ocmdStop .mgp 15).wf,
     (Instr.ocmdClear .mgp 15).wf,
     (Instr.ocmdGclear .mgp 15).wf,
     (Instr.boostReady 15).wf,
     (Instr.pwmPeriod 15 0 0 0 0 0 0).wf,
     (Instr.pmfsLearn 15 true 0).wf].all (· == true) = true := by
  decide +kernel

/-- Every bounded operand at its highest value: well formed (2). -/
theorem test_well_formed_at_the_bounds_2 :
    [(Instr.mondev 15 true).wf,
     (Instr.mondevClear 15 true).wf,
     (Instr.pfault 15 ⟨true, 0, 0⟩).wf,
     (Instr.probe 15).wf,
     (Instr.diagBlind 15).wf,
     (Instr.blindTimeout 15).wf,
     (Instr.selfCheck 10 true [⟨832, 0, 0, 0, 0⟩]).wf,
     (Instr.ecoChange 5).wf,
     (Instr.spareWrite .mgp 48 3 15).wf,
     (Instr.rotationPhase 48 0).wf,
     (Instr.dieTempUpdate [0, 0, 0, 0, 0, 0]).wf,
     (Instr.frespCommit .mgp 48 0#32).wf,
     (Instr.pathMOutput 783 0 []).wf,
     (Instr.pathESample 0 [[]]).wf,
     (Instr.tstale 783).wf,
     (Instr.metroCheckpoint 63).wf,
     (Instr.deviceCheckpoint 63).wf,
     (Instr.itemWrite 63).wf,
     (Instr.holdto 63).wf,
     (Instr.pop .mgp 255 true).wf,
     (Instr.flushed 64).wf,
     (Instr.itemTake 63 []).wf,
     (Instr.blockRelease 63 true).wf,
     (Instr.cdcmdEclear .mgp 3).wf,
     (Instr.cdcmdEtest .mgp 3).wf,
     (Instr.etestDone 3 true).wf,
     (Instr.ectlByp .mgp 15).wf,
     (Instr.engineTest 3 true).wf,
     (Instr.dcmdSubmit .mgp (List.replicate 8 0#32)).wf,
     (Instr.dcmdResume .mgp 15).wf,
     (Instr.dcmdAbort .mgp 15).wf,
     (Instr.dcmdRelease .mgp 15).wf,
     (Instr.jobStart 15).wf,
     (Instr.ddone 15).wf,
     (Instr.dstop 15).wf,
     (Instr.derr 15 ⟨0, []⟩).wf,
     (Instr.ack 1 0 3 63 268435455).wf,
     (Instr.resend 1 0 3 63 268435455).wf,
     (Instr.gapRecordStore 63).wf,
     (Instr.increment .mgp 68719476735).wf].all (· == true) = true := by
  decide +kernel

/-- Every bounded operand at its highest value: well formed (3). -/
theorem test_well_formed_at_the_bounds_3 :
    [(Instr.sourceQualify 3).wf,
     (Instr.sourceLost 1).wf,
     (Instr.ptpRx 3 0).wf,
     (Instr.ptpTx ⟨3, 281474976710655, 4294967295, 65535, 65535, [], [0, 0, 0, 0, 0, 0, 0, 0], [0, 0, 0, 0, 0, 0, 0, 0, 0, 0, 0, 0, 0, 0, 0, 0, 0, 0], []⟩ 0 0).wf,
     (Instr.ecfgMode .mgp 3).wf,
     (Instr.lcmdTrain .mgp 1).wf,
     (Instr.lcmdStop .mgp 1).wf,
     (Instr.lcmdTest .mgp 1).wf,
     (Instr.lcmdLretry .mgp 1).wf,
     (Instr.trainingFrame 2 3 (List.replicate 224 3)).wf,
     (Instr.fcokTimeout 2).wf,
     (Instr.rrdy 2).wf,
     (Instr.linkup 2 ⟨15, 15⟩ 0).wf,
     (Instr.trnfail 2).wf,
     (Instr.bringupRetry 2).wf,
     (Instr.codeword 2 3 (List.replicate 2720 3)).wf,
     (Instr.zlpFrame 2 3 4095 []).wf,
     (Instr.caps 2 0 0).wf,
     (Instr.time 2 2 1 15 0).wf,
     (Instr.transportNop 2).wf,
     (Instr.linkNop 2).wf,
     (Instr.lack 2 4095).wf,
     (Instr.nak 2 4095).wf,
     (Instr.ldrop 2 15 true 4095).wf,
     (Instr.ladd 2 15).wf,
     (Instr.lmask 2 15 true).wf,
     (Instr.ltrn 2 3 1023 63).wf,
     (Instr.clklost 2).wf,
     (Instr.clkfallback 2).wf,
     (Instr.lnkto 2).wf,
     (Instr.lanedn 2 3 4095).wf,
     (Instr.laneReady 2 3).wf,
     (Instr.retrainTimeout 2 3).wf,
     (Instr.margin 2 [0, 0, 0, 0]).wf,
     (Instr.quiet 2).wf,
     (Instr.quietExit 2).wf,
     (Instr.quietRestore 2).wf,
     (Instr.lanePllFail 2).wf,
     (Instr.authorityFrame 1 0 0 0 ⟨true, []⟩).wf,
     (Instr.beacon 1 0 0 0 0).wf].all (· == true) = true := by
  decide +kernel

/-- Every bounded operand at its highest value: well formed (4). -/
theorem test_well_formed_at_the_bounds_4 :
    [(Instr.coll 1 0 true).wf,
     (Instr.topo 1 0 0 0).wf,
     (Instr.credit 1 0 0).wf,
     (Instr.creditSend 1).wf,
     (Instr.tdist 1 0 0).wf,
     (Instr.tdistSend 1).wf,
     (Instr.report 1 0 0 0 0).wf,
     (Instr.cand 1 0 0 0).wf,
     (Instr.tkeep 1 0 0 0).wf,
     (Instr.pairingTimeout [(191, 65535)]).wf,
     (Instr.role 6 3 0).wf,
     (Instr.fail 15).wf,
     (Instr.ownFailure 15).wf,
     (Instr.summary 0 [(0, 0)]).wf,
     (Instr.pcmdRestart .mgp 3).wf,
     (Instr.watchdog 3).wf,
     (Instr.sensorSample [0, 0, 0, 0, 0, 0] (List.replicate 12 0) 0 0 0 0 0).wf,
     (Instr.confirm 7 true).wf,
     (Instr.sessfail 7).wf,
     (Instr.subscribe 7 0 4095 255).wf,
     (Instr.keepAlive 7 0).wf,
     (Instr.close 7 0).wf,
     (Instr.sessionTimeout 7).wf,
     (Instr.scmdClose .mgp 7).wf,
     (Instr.ucmdOpen .mgp 4294967295).wf,
     (Instr.regionErased 3).wf,
     (Instr.containerWritten 3).wf,
     (Instr.readback 3 true).wf,
     (Instr.boot 3 ⟨true, ⟨[], [], []⟩⟩ []).wf,
     (Instr.pllLoss 2).wf,
     (Instr.rail 11).wf,
     (Instr.portchg 1 true).wf,
     (Instr.inrushEnd 1).wf,
     (Instr.domainPowerGood 16).wf,
     (Instr.hbtoExpiry 1 true).wf].all (· == true) = true := by
  decide +kernel


/-- Witness for IdleStepIsOneCycle, with PD_TIM off at reset and on. -/
theorem test_witness_idleStep :
    State.reset.pending = [] ∧ State.reset.time.ns < 1000000000 ∧ State.reset.time.frac < 2 ^ 32 ∧
    domainOn (st [(PWR.PDST_PG, 0)]) 16 = false ∧ domainOn (st [(PWR.PDST_PG, 2 ^ 16)]) 16 = true ∧ (st [(PWR.PDST_PG, 2 ^ 16)]).pending = [] ∧
    pstate (st [(hSTATE (bankPage 5), 3)]) (bankPage 5) ≠ stOFF ∧ get (st [(hSTATE (bankPage 5), 3)]) (BNK.QCFG_QM 5 2) = 0 ∧
    flag (st [(hSTATE (bankPage 5), 3)]) (BNK.QSTAT_ON 5 2) = false ∧
    pstate (st [(hSTATE pEXC, 1)]) pEXC = stIDLE ∧ loadE7 (st [(hSTATE pEXC, 1)]) ≤ 240000000 ∧
    adapts (st [(hSTATE pTKE, 3)]) 0 1 = false := by
  decide +kernel

/-- R296: lane 1 of a running port adapts while it is qualified, permitted and in use, and not within 4 µs of quiet idle. -/
theorem test_adapts :
    (let s := setLink (st [(hSTATE pTKE, 3)]) 0 { qual := 2, rxact := 15 }
     [adapts s 0 1, adapts s 0 2, adapts (put s (TK.ADAPTQ_SWEN 0) 13) 0 1,
      adapts (setLink s 0 { link s 0 with rxWake := some 0 }) 0 1]) = [true, false, false, false] := by
  decide +kernel

/-- Witness for StepKeepsCanvasCanonical: a state with CANVAS bytes listed and a step that answers. -/
theorem test_witness_canvasCanonical :
    memWf (memPut State.reset 0x10000000 0x01000002#32).cnv.mem = true ∧
    (memPut State.reset 0x10000000 0x01000002#32).cnv.mem.length = 2 ∧
    (nextOf (step (memPut State.reset 0x10000000 0x01000002#32))).isSome = true := by
  decide +kernel

/-- Witness for WellFormedCommandsRun: a well-formed command, and an ill-formed one that stops. -/
theorem test_witness_wellFormed :
    (Instr.settleEnd 783 true).wf = true ∧ (Instr.settleEnd 784 true).wf = false ∧
    exec (Instr.settleEnd 784 true) State.reset = .fault .noSuchUnit :=
  ⟨rfl, rfl, rfl⟩

/-- Witness for ReportedReasonIsTheHighest. -/
theorem test_witness_worst :
    worst [(.state, 0x40), (.range, 0x48), (.range, 0x44)] = some (.range, 0x44) ∧ worst [] = none := by
  decide +kernel

/-- A session on the Ethernet port whose next message is number 1, in slot 3. -/
def withSession (r : Role) (s : State) : State := setSession s 3 (some { role := r, path := .eth })

/-- The state with session 3 is one in which its message comes in turn. -/
theorem test_comes (r : Role) (s : State) (h : mgpRuns s = true) :
    Comes (withSession r s) (.session 3 1) (arrived (withSession r s) 3 { role := r, path := .eth }) :=
  ⟨h, _, session_setSession_same .., rfl, rfl, rfl, rfl⟩

/-- Witness for RejectedAccessIsRecorded: R43's burst on CNV (an access that its words reject), a burst across the page's end, a read
across it, an accepted write and an accepted read. -/
theorem test_witness_rejected :
    mgpRuns pwr = true ∧ assigned pCNV = true ∧ answers (arrived (withSession .owner pwr) 3 { role := .owner, path := .eth }) pCNV = true ∧
    worst (violAccess (arrived (withSession .owner pwr) 3 { role := .owner, path := .eth }) (.session 3 1) pCNV 8 3 true) = none ∧
    worst (judge (arrived (withSession .owner pwr) 3 { role := .owner, path := .eth }) (.session 3 1) false pCNV 8 [1#32, 0#32, 2#32]).2 =
      some (.range, 0xC) ∧
    worst (violAccess pwr .mgp pCNV 0xFFC 2 true) = some (.size, 0xFFC) ∧ worst (violRead pwr .mgp pCNV 0xFFC 2) = some (.size, 0xFFC) ∧
    admits pwr .mgp pCNV 0x10 [3#32] false = true ∧ worst (violRead pwr .mgp pCNV 0x10 1) = none := by
  decide +kernel

/-- Witness for UnrecordedAccessGoesToXrej: an unassigned page, CANVAS with its domain off, and MAKER. -/
theorem test_witness_xrej :
    mgpRuns pwr = true ∧ assigned 5 = false ∧ mayWrite (actRole pwr .mgp) 5 = true ∧ lenOk [0#32].length = true ∧
    mgpRuns (st [(PWR.PDST_PG, 3)]) = true ∧ assigned pCNV = true ∧ answers (st [(PWR.PDST_PG, 3)]) pCNV = false ∧
    mayWrite (actRole (st [(PWR.PDST_PG, 3)]) .mgp) pCNV = true ∧ answers pwr pMAKER = true ∧ 0 + 4 * 1 ≤ 0x1000 := by
  decide +kernel

/-- Witness for ObserverWritesNothing. -/
theorem test_witness_observer :
    mgpRuns pwr = true ∧ session (withSession .observer pwr) 3 = some { role := .observer, path := .eth } ∧ lenOk [1#32].length = true := by
  decide +kernel

/-- Witness for SessionMessagesRunInOrder: a session that has executed messages 1 and 2. -/
theorem test_witness_order :
    mgpRuns pwr = true ∧ lenOk [0#32].length = true ∧
    (let x : Session := { role := .owner, path := .eth, next := 3, cache := [(2, ⟨0, [], 0⟩)] }
     session (setSession pwr 0 (some x)) 0 = some x ∧ x.cache.find? (fun y => y.1 = 2) = some (2, ⟨0, [], 0⟩) ∧
     x.cache.find? (fun y => y.1 = 1) = none ∧ (x.held.any fun y => y.1 = 67) = false ∧ x.next < 67 ∧ 67 ≤ x.next + 64 ∧ x.next + 64 < 68) := by
  decide +kernel

/-- Witness for SubscribeReplies: a page whose domain is off, for a session with a turn. -/
theorem test_witness_subscribe :
    mgpRuns (st [(PWR.PDST_PG, 3)]) = true ∧ answers (withSession .observer (st [(PWR.PDST_PG, 3)])) pCNV = false ∧ assigned pCNV = true ∧
    session (withSession .observer (st [(PWR.PDST_PG, 3)])) 3 = some { role := .observer, path := .eth } := by
  decide +kernel

/-- Witnesses for SessionTraffic: a readable page, a session with a turn, and a notice due. -/
theorem test_witness_traffic :
    mgpRuns pwr = true ∧ worst (violRead pwr .mgp pAXS 0 16) = none ∧ lenOk 16 = true ∧
    (let x : Session := { role := .owner, path := .eth, subs := [pAXS], due := [pAXS] }
     session (setSession pwr 0 (some x)) 0 = some x ∧ pAXS ∈ x.due ∧ answers (setSession pwr 0 (some x)) pAXS = true) := by
  decide +kernel

/-- Witnesses for BurstCommitsOnItsImage. -/
theorem test_witness_commit :
    mgpRuns pwr = true ∧ admits pwr .mgp pMGT 0xBC [9000#32, 500#32] false = true ∧
    admits (put pwr (hPEVT pAXS) 0x301) .mgp pAXS 0x10 [0x201#32] false = true := by
  decide +kernel

/-- Witnesses for SoftResetAndEnable: a bank page in FAULT is reset; it is enabled from OFF and disabled from IDLE. -/
theorem test_witness_softReset :
    (let s := puts pwr [(hENABLE 0x10, 1), (hSTATE 0x10, 7), (BNK.CHCFG_MODE 0 3, 1)]
     mgpRuns s = true ∧ get s (hLOCK 0x10) < 2 ∧ get s (hENABLE 0x10) < 2 ∧ admits s .mgp 0x10 8 [wd (storedWord s 0x10 8 % 2 ^ 32 + 2)] false = true) ∧
    admits pwr .mgp 0x10 8 [wd (get pwr (hLOCK 0x10) * 2 ^ 31 + 1)] false = true ∧ pstate pwr 0x10 = stOFF ∧ get pwr (hLOCK 0x10) < 2 ∧
    (let s := puts pwr [(hENABLE 0x10, 1), (hSTATE 0x10, 1)]
     admits s .mgp 0x10 8 [wd (get s (hLOCK 0x10) * 2 ^ 31 + 0)] false = true ∧ pstate s 0x10 = stIDLE) := by
  decide +kernel

/-- A hub whose mains input is enabled and has had 19 valid periods. -/
def mains : State := { st [(AXS.MCFG_MEN, 1), (hSTATE pAXS, stRUN)] with axs := { mainsT := some 0, mainsGood := 19 } }

/-- Witnesses for MainsAxisMeasures: a 50 Hz period, the shortest and longest valid ones, and a lost input. -/
theorem test_witness_mains :
    flag mains AXS.MCFG_MEN = true ∧ pstate mains pAXS ≠ stOFF ∧ mains.axs.mainsT = some 0 ∧ mainsValid 20000000 = true ∧
    mainsValid 22222222 = true ∧ mainsValid 22222223 = false ∧ mainsValid 15384616 = true ∧ mainsValid 15384615 = false ∧
    flag mains AXS.ASTAT_MLOST = false ∧ 19 ≤ mains.axs.mainsGood ∧ flag mains AXS.ASTAT_MLOCK = false := by
  decide +kernel

/-- R50: a period of 20 ms reads 20,000,000 ns, and locks after the twentieth. -/
theorem test_mains_period :
    (nextOf (exec (.mainsCrossing 20000000 0) mains)).map (fun u => (get u AXS.MPER_PER, get u AXS.ASTAT_MLOCK)) = some (20000000, 1) := by
  decide +kernel

/-- A quadrature encoder of `n` counts a turn at count `c`. -/
def encoder (n c : Nat) : State :=
  st [(hSTATE pAXS, stRUN), (AXS.ECFG_SRC, 1), (AXS.ECFG_ZEN, 1), (AXS.ECPTLO_CPT, n), (AXS.ECNT_CNT, c)]

/-- Witness for EncoderCountsQuadrature, with the smallest turn. -/
theorem test_witness_encoder :
    pstate (encoder 1 0) pAXS ≠ stOFF ∧ get (encoder 1 0) AXS.ECFG_SRC = 1 ∧ cpt (encoder 1 0) = 1 ∧ get (encoder 1 0) AXS.ECNT_CNT = 0 ∧
    flag (encoder 1 0) AXS.ECFG_ZEN = true ∧ flag (encoder 1 0) AXS.ASTAT_EREV = false ∧ pstate (st [(hSTATE pSCH, stIDLE)]) pSCH = stIDLE := by
  decide +kernel

/-- R52: with A leading B, DIR = 0 and CPT = 4,096, a rising A at count 4,095 wraps to 0. -/
theorem test_encoder_wraps :
    (nextOf (exec (.encoderEdge true false 0) (encoder 4096 4095))).map (fun u => (get u AXS.ECNT_CNT, u.axs.turn)) = some (0, 1) := by
  decide +kernel

/-- R52: both lines change at once: the count stays and ENCERR is raised. -/
theorem test_encoder_illegal :
    (nextOf (exec (.encoderEdge true true 0) (encoder 4096 7))).map (fun u => (get u AXS.ECNT_CNT, evt u pAXS 10)) = some (7, true) := by
  decide +kernel

/-- An SSI encoder of 4,096 counts, 24-bit frames with 12 turn bits. -/
def ssi (last : Option Int) : State :=
  { st [(hSTATE pAXS, stRUN), (AXS.ECFG_SRC, 2), (AXS.ECFG_SSIB, 24), (AXS.ECFG_MTB, 12), (AXS.ECPTLO_CPT, 4096)] with axs := { ssiLast := last } }

/-- Witnesses for SsiPpsAndPads: a first frame, the last step within CPT/4 and the first beyond it, and a table that is not live. -/
theorem test_witness_ssi :
    pstate (ssi none) pAXS ≠ stOFF ∧ get (ssi none) AXS.ECFG_SSIB = 24 ∧ cpt (ssi none) = 4096 ∧
    0x001400 % 2 ^ 24 % 2 ^ (24 - 12) = 0x400 ∧ 0x001400 % 2 ^ 24 / 2 ^ (24 - 12) = 1 ∧
    ((4096 : Int) + 1024 - (1 * 4096 + 0x400 : Nat)) % ((2 ^ (24 - 12) * 4096 : Nat) : Int) = 0 ∧ 4 * (1024 : Int).natAbs ≤ 4096 ∧
    ((4096 : Int) + 1025 - (1 * 4096 + 0x401 : Nat)) % ((2 ^ (24 - 12) * 4096 : Nat) : Int) = 0 ∧ 4096 < 4 * (1025 : Int).natAbs ∧
    flag (st [(AXS.PPSCFG_PEN, 1), (hSTATE pAXS, 3)]) AXS.PPSCFG_PEN = true ∧
    edgeTaken (st [(AXS.TRGCFG_DIR 7, 1), (hSTATE pAXS, 3)]) 7 true = true ∧ tableLive (st [(AXS.TRGCFG_DIR 7, 1)]) = false := by
  decide +kernel

/-- R53: from turn 1 count 0, a frame of turn 1 count 1,024 is taken, one of turn 1 count 1,025 is discarded. -/
theorem test_ssi_jump :
    (nextOf (exec (.ssiFrame 0x001400 true 0) (ssi (some 4096)))).map (fun u => (get u AXS.ECNT_CNT, get u AXS.ASTAT_SSIOK)) = some (1024, 1) ∧
    (nextOf (exec (.ssiFrame 0x001401 true 0) (ssi (some 4096)))).map (fun u => (get u AXS.ECNT_CNT, evt u pAXS 12)) = some (0, true) := by
  decide +kernel

/-- A powered hub with SCH, AXS, STM and QUE enabled, context 1 on channel 0 in IDLE with its queue, and a shadow (table B) that opens
its slots every 1,000,000 ticks from second 10 on. -/
def sched (st1 : Nat) : State :=
  puts pwr [(hENABLE pSCH, 1), (hSTATE pSCH, st1), (hSTATE pAXS, 1), (hSTATE pSTM, 1), (hSTATE pQUE, 1), (STM.CCFG_CEN 1, 1),
    (STM.CSTAT_STATE 1, 1), (STM.CCFG_PATH 1, 1), (STM.CSET_CH 0 1, 1), (STM.CCFG_BSLOT 1, 1), (SCH.BASESL_SEC, 10),
    (SCH.EPOCHS_EP, 1), (SCH.ENT 0 256, 0x60000000), (SCH.ENT 4 256, 1), (SCH.ENT 0 257, 0x12010000), (SCH.ENT 3 257, 1024000)]

/-- Witnesses for ScheduleCommands, from IDLE, ARMED and RUN. -/
theorem test_witness_schCommands :
    mgpRuns (sched 1) = true ∧ admits (sched 1) .mgp pSCH 0x40 [1#32] false = true ∧ cstate (sched 1) 1 = stIDLE ∧
    namesCtx (entAt (sched 1) (shadowT (sched 1)) 1) 1 = true ∧
    (let s := put (sched 2) SCH.SSTAT_SHVAL 1
     admits s .mgp pSCH 0x40 [2#32] false = true ∧ pstate s pSCH = stARMED ∧ flag s SCH.SSTAT_SHVAL = true) ∧
    admits (sched 3) .mgp pSCH 0x40 [3#32] false = true ∧ get (sched 3) DOM.DROLE_AUTH ≠ 1 ∧
    admits (sched 1) .mgp pSCH 0x40 [4#32] false = true ∧ liveT (sched 1) < 2 := by
  decide +kernel

/-- R62, R192: COMMIT from IDLE arms the schedule and the context its table names. -/
theorem test_commit_arms :
    (nextOf (exec (.schCommit .mgp) (sched 1))).map (fun t => (get t SCH.SSTAT_SHVAL, pstate t pSCH, cstate t 1)) = some (1, 2, 2) := by
  decide +kernel

/-- Witnesses for SwitchAndStopPoint. -/
theorem test_witness_switch :
    (let s := put (sched 2) SCH.SSTAT_SHVAL 1
     flag s SCH.SSTAT_SHVAL = true ∧ pstate s pSCH = stARMED ∧ (epochInstant s).isSome = true) ∧
    (let s := put (sched 2) SCH.SSTAT_EPV 1
     pstate s pSCH = stARMED ∧ flag s SCH.SSTAT_EPV = true) ∧
    (let s := { sched 3 with sch := { stopAt := some 5 } }
     s.sch.stopAt = some 5 ∧ pstate s pSCH = stRUN) ∧ pstate (sched 4) pSCH = stDRAIN ∧ ctxActive (put (sched 4) (STM.CSTAT_STATE 1) 3) 1 = true := by
  decide +kernel

/-- A live table (A) with entry 5 of the given first word, on TIME with step 1,024,000, from BASE 0; bank 0 and context 1 run. -/
def live (w0 aux : Nat) : State :=
  puts pwr [(hSTATE pSCH, 3), (hSTATE pAXS, 1), (hSTATE pSTM, 3), (hSTATE pQUE, 3), (SCH.SSTAT_EPV, 1), (hSTATE 0x10, 3),
    (STM.CCFG_CEN 1, 1), (STM.CSTAT_STATE 1, 3), (STM.CCFG_PATH 1, 1), (STM.CSET_CH 0 1, 1), (STM.CCFG_BSLOT 1, 4),
    (SCH.ENT 0 5, w0), (SCH.ENT 3 5, 1024000), (SCH.ENT 5 5, aux)]

/-- Witnesses for PointsAdvanceTheirEntry: one live entry of each kind, with a further point, and a last point. -/
theorem test_witness_points :
    (due (live 0x12010000 0) 5 actOPEN).isSome = true ∧ ctxActive (live 0x12010000 0) 1 = true ∧ streamDown (live 0x12010000 0) = false ∧
    (due (live 0x20000000 0) 5 actSWAP).isSome = true ∧ (due (live 0x30000001 0x10004) 5 actOPTP).isSome = true ∧
    (due (live 0x50000000 0) 5 actCKPT).isSome = true ∧ (entAt (live 0x50000000 0) 0 5).step = 1024000 ∧
    (entAt (live 0x50000000 0) 0 5).rep = 0 ∧ swapNames (entAt (live 0x20000000 0) 0 5) 0 = true ∧ producing (live 0x20000000 0) 0 = true ∧
    role (live 0x50000000 0) ≠ rACTIVE ∧ role (live 0x50000000 0) ≠ rTAKEOVER ∧
    (due (put (live 0x12010000 0) (SCH.ENT 4 5) 1) 5 actOPEN).isSome = true := by
  decide +kernel

/-- R175: an OPEN point opens one slot of the context with one channel. -/
theorem test_open_point :
    (nextOf (exec (.openPoint 5) (live 0x12010000 0))).map (fun t => ((ctx t 1).cur.length, get t (STM.CSLLO_N 1), (progress t 5).k)) =
      some (1, 1, 1) := by
  decide +kernel

/-- A context with an all-emerged window and, if `p`, a pending trigger of entry 0 at sample 40 with 16 samples before and 8 after. -/
def window (p : Bool) : State :=
  { puts pwr [(hSTATE pSCH, 3), (SCH.SSTAT_EPV, 1), (SCH.ENT 5 0, 0x100008)] with
    sch := { wins := [(1, some { entry := 0, first := 10, last := 19, next := 20, pend := if p then some (0, 40) else none })] } }

/-- A member of head position 3, generation 7, with the DOM page up. -/
def member : State :=
  { puts pwr [(hSTATE pDOM, 3), (DOM.DROLE_AUTH, 2), (DOM.AGEN_GEN, 7), (SCH.EPOCHL_EP, 9), (hSTATE pSCH, 3)] with dom := { recPos := some 3 } }

/-- Witnesses for WindowsAndDistributedTables. -/
theorem test_witness_windows :
    winOf (window false) 1 = some { entry := 0, first := 10, last := 19, next := 20 } ∧ (ctx (window false) 1).leaving = false ∧
    (winOf (window true) 1).map (·.pend) = some (some (0, 40)) ∧
    max (40 - (entAt (window true) (liveT (window true)) 0).aux / 65536) (19 + 1) < 40 + (entAt (window true) (liveT (window true)) 0).aux % 65536 ∧
    (let s := setCtx { pwr with cnv := { pwr.cnv with ringLast := some 8 } } 2 { cur := [⟨0, gInterp, false, false, [(0, none)]⟩] }
     waitingInterp s 2 = some ⟨0, gInterp, false, false, [(0, none)]⟩ ∧ (samplePos 0).1 + 8 ≤ 8) ∧
    pstate member pDOM ≠ stOFF ∧ ofHead member true 4 = false ∧ ofHead member false 3 = false ∧ fromHead member 7 3 = true ∧ get member DOM.DROLE_AUTH = 2 ∧ 9 = get member SCH.EPOCHL_EP ∧
    pstate member pSCH = stRUN := by
  decide +kernel

/-- Witnesses for BankCommands, on the first bank, the last and OBK. -/
theorem test_witness_bankCommands :
    mgpRuns (bankIn 47 1) = true ∧ admits (bankIn 47 1) .mgp (bankPage 47) (bankOff 47 0x40) [1#32] false = true ∧
    activeMask (bankIn 47 1) 47 ≠ 0 ∧ admits (bankIn 48 1) .mgp (bankPage 48) (bankOff 48 0x40) [1#32] false = true ∧
    admits (bankIn 0 3) .mgp (bankPage 0) (bankOff 0 0x40) [2#32] false = true ∧
    admits (bankIn 0 3) .mgp (bankPage 0) (bankOff 0 0x40) [3#32] false = true ∧
    admits (bankIn 0 6) .mgp (bankPage 0) (bankOff 0 0x40) [4#32] false = true ∧
    admits (bankIn 0 1) .mgp (bankPage 0) (bankOff 0 0x4C) [wd (1 * 256 + 3)] false = true ∧
    admits (bankIn 0 3) .mgp (bankPage 0) (bankOff 0 0x48) [0x01000400#32] false = true ∧ producing (bankIn 0 3) 0 = true ∧
    get (bankIn 0 3) (BNK.FRESP_CICD 0) ≠ wbits 0x01000400#32 15 0 ∧ admits (bankIn 0 3) .mgp pEXC 0x4C [1#32] false = true := by
  decide +kernel

/-- R90: START of bank 0 from IDLE. -/
theorem test_bank_start :
    (nextOf (exec (.bcmdStart .mgp 0) (bankIn 0 1))).map (fun t => (pstate t 0x10, get t (BNK.SETST_SET 0), get t (hBUSY 0x10))) = some (3, 4, 1) := by
  decide +kernel

/-- Witnesses for RoutingAndSettling. -/
theorem test_witness_routing :
    (bank (setBank (bankIn 48 3) 48 { route := some ⟨5, 1⟩ }) 48).route = some ⟨5, 1⟩ ∧
    (bank (setBank (bankIn 48 3) 48 { route := some ⟨5, 2⟩ }) 48).route = some ⟨5, 2⟩ ∧
    (let s := setChan (bankIn 48 3) 783 { endE := some 3, endM := some 3072, lastM := some 3072 }
     let u := { s with time := { sec := 1 } }
     (chan u 783).endE = some 3 ∧ 3 < sampleInProgress u ∧ (chan u 783).mwLeft = 0 ∧ (chan u 783).endM = some 3072 ∧
     emerged u 783 3072 = true ∧ role u ≠ rTAKEOVER) ∧
    producing (bankIn 47 3) 47 = true ∧ onGrid (bankIn 47 3) 47 = true ∧ role (bankIn 47 3) ≠ rTAKEOVER ∧
    onGrid { bankIn 47 3 with time := { ns := 1000 } } 47 = false ∧ producing (bankIn 47 1) 47 = false ∧
    flag (put (bankIn 47 3) (BNK.QSTAT_ON 47 3) 1) (BNK.QSTAT_ON (767 / 16) (767 % 16 / 4)) = true ∧
    (bank (setBank (bankIn 0 3) 0 { blanking := true }) 0).blanking = true ∧
    legJudged (setBank (put (bankIn 0 3) (BNK.XCTL_PAEN 0) 1) 0 { blanking := true }) 0 2 = true ∧
    legBroken (put (bankIn 0 3) (BNK.XCTL_PAEN 0) 1) 0 2 1001 1000 = true ∧ legBroken (put (bankIn 0 3) (BNK.XCTL_PAEN 0) 1) 0 2 1000 999 = false ∧
    legBroken (put (bankIn 0 3) (BNK.CHCFG_MODE 0 2) 5) 0 2 0 999 = true ∧ legBroken (put (bankIn 0 3) (BNK.CHCFG_MODE 0 2) 5) 0 2 0 11000 = false := by
  decide +kernel

/-- Bank 5 samples with a voltage quad 1 of LEVEL 500 and ILOAD 60 that drives. -/
def quadOn : State :=
  puts (bankIn 5 3) [(BNK.QCFG_QM 5 1, 1), (BNK.QCFG_LEVEL 5 1, 500), (BNK.QCFG_ILOAD 5 1, 60), (BNK.QSTAT_ON 5 1, 1)]

/-- R91, R345: a reference of 80 mA, and 91 mA now: more than 1/8 off and not 25 %. -/
def quadOff : State := put (setBank quadOn 5 { bank quadOn 5 with iRef := [(1, some 8000)] }) (BNK.QMEAS_IMEAS 5 1) 9100

/-- Witnesses for OpenWiresAndOverload, the last with a programmed total above 24 W. -/
theorem test_witness_monitors :
    producing quadOn 5 = true ∧ get quadOn (BNK.QCFG_QM 5 1) ≠ 0 ∧ flag quadOn (BNK.QSTAT_ON 5 1) = true ∧
    flag (put quadOn (BNK.QSTAT_OPEN 5 1) 1) (BNK.QSTAT_OPEN 5 1) = true ∧ role quadOn ≠ rTAKEOVER ∧ bit (bank quadOn 5).legs 4 = false ∧
    producing (bankIn 48 3) (770 / 16) = true ∧ get (bankIn 48 3) (BNK.CHCFG_MODE (770 / 16) (770 % 16)) ≠ 0 ∧
    bit (get (put quadOn (BNK.CHST_OVR 5) 8) (BNK.CHST_OVR (83 / 16))) (83 % 16) = true ∧ answers quadOn (bankPage 47) = true ∧
    240000000 < loadE7 (puts quadOn ((List.range 2).flatMap fun n => (List.range 4).flatMap fun q =>
      [(BNK.QCFG_QM n q, 1), (BNK.QCFG_LEVEL n q, 511), (BNK.QSTAT_ON n q, 1), (BNK.QMEAS_IMEAS n q, 65535)])) ∧
    pstate quadOn pEXC = stIDLE ∧ flag quadOff (BNK.QSTAT_ON 5 1) = true ∧ tget (bank quadOff 5).iRef 1 none = some 8000 ∧
    get quadOff (BNK.QMEAS_IMEAS 5 1) = 9100 ∧ (∀ k < 4, (chan quadOff (84 + k)).endM = none ∧ (chan quadOff (84 + k)).mwLeft = 0) ∧
    departs quadOff 5 1 8 = true ∧ departs quadOff 5 1 4 = false := by
  decide +kernel

/-- Witnesses for BankFaultsAndSelfCheck. -/
theorem test_witness_bankFaults :
    producing (bankIn 48 6) 48 = true ∧ pstate quadOn pEXC ≠ stOFF ∧ pstate quadOn pEXC ≠ stFAULT ∧ bankDrives quadOn 5 = true ∧
    3 ∈ domainBanks 3 ∧ producing quadOn 3 = false ∧ pstate quadOn pMTR ≠ stSEALED ∧ bit ({ quadOn with pwr := { ecoPend := 0x20 } } : State).pwr.ecoPend 5 = true ∧ pstate quadOn pFLT ≠ stOFF ∧
    [2500, 2500, 2500, 2500, 2500, -4000].length = 6 := by
  decide +kernel

/-- A rotation of bank 0 in channel 2's step at a phase, with the L0 gain of the slice at 1.0. -/
def rotating (ph : Nat) : State :=
  setRot (put (bankIn 0 3) (MGT.CG0_G0 (l0Slot (bankIn 0 3) 0 2 2)) (2 ^ 30)) 0 (some { ch := 2, phase := ph, z := 100 })

/-- Witnesses for RotationRunsItsPhases: Z = 100 and F = Z + 0x333333, an exact gain of 1.0, is accepted. -/
theorem test_witness_rotation :
    (bank (rotating 1) 0).rot = some { ch := 2, phase := 1, z := 100 } ∧ fesRuns (rotating 1) = true ∧
    (roundEven (0x333333 * 2 ^ 30) (0x333333 + 100 - 100 : Int).toNat).toNat = 2 ^ 30 ∧
    get (rotating 3) (MGT.CG0_G0 (l0Slot (rotating 3) 0 2 2)) = 2 ^ 30 ∧ (100 : Int).natAbs * 100 ≤ 2 * 0x666666 := by
  decide +kernel

/-- Witness for OutputsReachTheirSlots: an open slot of context 1 that waits for channel 2, and CANVAS powered. -/
theorem test_witness_outputs :
    (let s := setCtx (puts (bankIn 0 3) [(STM.CSTAT_STATE 1, 3), (STM.CSET_CH 0 1, 4)]) 1 { cur := [⟨0, 6144, false, false, [(2, none)]⟩] }
     get s (STM.CCFG_PATH 1) = 0 ∧ ctxHas s 1 2 = true ∧ 2 ≤ cstate s 1 ∧ (ctx s 1).cur.length = 1 ∧
     gridNext s 2 6144 = true ∧ gridNext s 2 6145 = false) ∧ domainOn pwr 13 = true := by
  decide +kernel

/-- R250: frame 85,599 lies where frame 1 lay, and is the newest. -/
theorem test_ring_wraps :
    (nextOf (exec (.pathESample 85599 []) pwr)).map (fun t => t.cnv.ringLast) = some (some 85599) ∧ ringAddr 85599 0 = 3136 := by
  decide +kernel

/-- A hub whose OBK samples, with port 2 in CONT mode of group 1 in a state. -/
def portIn (v : Nat) : State :=
  puts (bankIn 48 3) [(OPTP.PCFG_PM 2, 1), (OPTP.PCFG_COL 2, 1), (OPTP.PCFG_NEMA 2, 2), (OPTP.PCFG_FGRP 2, 1), (OPTP.PSET_SA 2, 255),
    (OPTP.PST_STATE 2, v), (OPT.OPLIM_LIM, 4000)]

/-- Witnesses for PortCommands, CLEAR also under a seal. -/
theorem test_witness_portCommands :
    mgpRuns (portIn 1) = true ∧ admits (portIn 1) .mgp pOPT 0x40 [wd (2 * 256 + 1)] false = true ∧
    admits (portIn 3) .mgp pOPT 0x40 [wd (2 * 256 + 2)] false = true ∧ admits (portIn 7) .mgp pOPT 0x40 [wd (2 * 256 + 3)] false = true ∧
    admits (put (portIn 7) (hSTATE pOPT) 8) .mgp pOPT 0x40 [wd (2 * 256 + 3)] false = true ∧
    admits (portIn 7) .mgp pOPT 0x40 [wd (1 * 256 + 4)] false = true ∧
    admits (put (portIn 7) (OPTP.PCFG_PM 2) 0) .mgp pOPT 0x40 [wd (2 * 256 + 3)] false = true ∧ get (portIn 7) (OPTP.PCFG_FGRP 2) = 1 := by
  decide +kernel

/-- Port 2 in RUN in CONT mode with a lit mask, a code in effect and a compensation. -/
def portLit (m eff comp : Nat) : State := setOport (portIn 3) 2 { lit := m, eff := eff, comp := comp }

/-- Witnesses for PortsLightAndMeasure: a dark port, a lit one with and without a compensation, a colour that deviates and one that does
not, a limit exceeded and kept. -/
theorem test_witness_portsLight :
    (let s := setOport (portIn 3) 2 { dark := true }
     get s (OPTP.PST_STATE 2) = stRUN ∧ (oport s 2).dark = true ∧ s.boostUp = true ∧ roleDrives s = true ∧ contMask s 2 = 1) ∧
    get (portLit 1 255 0) (pmfsFld 2 false) = 0 ∧ effCode (portLit 1 255 0) 2 false ≠ 0 ∧
    roundUpHalf (1000 * 10 ^ 30) (decay (255 - effCode (portLit 1 255 0) 2 false)) = 1000 ∧
    (let s := portLit 1 255 0
     (oport s 2).eff = get s (OPTP.PSET_SB 2) * 256 + get s (OPTP.PSET_SA 2) ∧ bit (oport s 2).lit 0 = true ∧
     wholeLight ≤ (oport s 2).rem.1 + 16 * duty (effCode s 2 false) * pwmCycles) ∧
    (let s := puts (portLit 1 255 0) [(pmfsFld 2 false, 1000), (OPTP.PMON_MONA 2, 100)]
     deviates s 2 false = true) ∧ regulates (portLit 1 255 0) 2 false = false ∧
    (let s := setOport (puts (portIn 3) [(pmfsFld 2 false, 1000), (OPTP.PMON_MONA 2, 1000)]) 2 { lit := 1, eff := 255, cur := (10 ^ 30, 0) }
     regulates s 2 false = true ∧ deviates s 2 false = false) ∧ bit (litLast (portLit 1 255 0) 2) 0 = true ∧
    (let s := put (portLit 1 255 0) OPT.OPLIM_LIM 10
     opLimit2 s * 100 * 10 ^ 30 < 2 * opLoadRaw s ∧ roleDrives s = true ∧ (oport s 2).lit ≠ 0 ∧ 10 ^ 30 ≤ s.optK) ∧
    ({ portLit 1 255 0 with optK := 10 ^ 29 } : State).optK < 10 ^ 30 := by
  decide +kernel

/-- R97, R98: code 255 is lit for the whole PWM period, 12,288 CCLK cycles. -/
theorem test_pwm_whole : 16 * duty 255 * pwmCycles / wholeLight = 12288 := by
  decide +kernel

/-- R99: a reading of 1,000 at A = 1 dB (code 251) learns 1,000 x 10^0.1 = 1,259. -/
theorem test_pmfs : roundUpHalf (1000 * 10 ^ 30) (decay (255 - 251)) = 1259 := by
  decide +kernel

/-- Witnesses for PortFaultsAndProbes: ports 2 and 3 of one group, of which 2 has a shorted string or 8 dark periods, a probe at code 50, and
blind ports in CONT and in PULSE mode. -/
theorem test_witness_portFaults :
    (let s := setOport (puts (portIn 3) [(OPTP.PCFG_FGRP 3, 1), (OPTP.PST_STATE 3, 1)]) 2 { drove := 1, cur := (10 ^ 30, 0) }
     portLive s 2 = true ∧ portLive s 3 = true ∧ get s (OPTP.PCFG_FGRP 3) = get s (OPTP.PCFG_FGRP 2) ∧
     portCause s 2 false 10000 1599 = some (3, 0) ∧ portCause s 2 false 10000 1600 = none ∧ portCause s 2 false 4999 12000 = some (1, 0) ∧
     portCause s 2 false 5000 12000 = none) ∧
    portLive (portIn 3) 4 = false ∧
    (let s := setOport (puts (portIn 7) [(OPTP.PST_CAUSE 2, 8)]) 2 { darkA := [8, 7, 6, 5, 4, 3, 2, 1], faultP := some 0 }
     portCause s 2 true 0 0 = some (5, 1) ∧ get s (OPTP.PST_STATE 2) = stFAULT ∧ get s (OPTP.PST_CAUSE 2) = 8 ∧
     (oport s 2).faultP = some (pwmNow s)) ∧
    (let s := portLit 3 (50 * 256 + 50) 0
     flag s OPT.PRB_EN = true ∧ get s (OPTP.PCFG_PM 2) = 1 ∧ probeColour s 2 = some false) ∧
    (let s := put (portLit 1 50 0) OPT.PRB_EN 0
     flag s (OPTP.PST_BLIND 2) = false ∧ blindNow s 2 = true ∧ roleDrives s = true) ∧
    (let s := setOport (put (portIn 3) (OPTP.PCFG_PM 2) 2) 2 { lits := [⟨1, 0, some 11⟩] }
     blindNow s 2 = true) ∧
    (let s := put (portLit 1 50 0) (OPTP.PST_BLIND 2) 1
     flag s (OPTP.PST_BLIND 2) = true ∧ (oport s 2).blindRaised = false ∧ roleDrives s = true) := by
  decide +kernel

/-- A powered hub with LIN up and a flash operation, and one saved coefficient. -/
def linUp (op : Nat) : State :=
  { puts pwr [(hSTATE pLIN, 1), (LIN.LSEL_CH, 5)] with
    pwr := { linOp := op }, flash := { lin := [((LIN.COEF_C 0 5).code, 7)] } }

/-- Witnesses for LinearisationSets: the commands from IDLE, and each operation's end. -/
theorem test_witness_lin :
    mgpRuns (linUp 0) = true ∧ admits (linUp 0) .mgp pLIN 0xC0 [wd (0 + 1)] false = true ∧
    admits (linUp 0) .mgp pLIN 0xC0 [wd (1 + 1)] false = true ∧ admits (linUp 0) .mgp pLIN 0xC0 [3#32] false = true ∧
    admits (linUp 0) .mgp pLIN 0xC8 [0x3F800000#32] false = true ∧ (linUp 1).pwr.linOp = 1 ∧ (linUp 2).pwr.linOp = 2 ∧
    rising (linUp 2).flash.lin = true ∧ (linUp 2).flash.lin.all (fun x => isSetCode x.1) = true ∧
    isSetCode (LIN.COEF_C 0 5).code = true ∧ chSealed (linUp 2) (setCodeCh (LIN.COEF_C 0 5).code) = false ∧
    chSealed (puts (linUp 2) [(hSTATE pMTR, 8), (MTR.MDESLO_BANKS, 1)]) (setCodeCh (LIN.COEF_C 0 5).code) = true := by
  decide +kernel

/-- R151: the identity set evaluates to its x: TESTX = 0.25 gives TESTY = 0.25. -/
theorem test_identity_set :
    (nextOf (exec (.testtWrite .mgp 0#32) (put (linUp 0) LIN.TESTX_X 0x3E800000))).map (get · LIN.TESTY_Y) = some 0x3E800000 := by
  decide +kernel

/-- Witnesses for LinearisationChecks. -/
theorem test_witness_linChecks :
    (let s := puts pwr [(LIN.LCFG_LEN 783, 1), (LIN.LCFG_TSRC 783, 1), (hSTATE pLIN, 3)]
     lenOf s 783 = true ∧ get s (LIN.LCFG_TSRC 783) = 1 ∧ pstate s pLIN ≠ stOFF) := by
  decide +kernel

/-- A KGL768-IM whose four processors run, with bank 3 designated and in a state, and MTR in a state with an operation. -/
def muslin (st1 v : Nat) (op : Option MtrOp) : State :=
  { puts pwr [(DEV.ORDC_CODE, 2), (MGT.PRST_ST 1, 2), (MTR.MDESLO_BANKS, 8), (hSTATE (bankPage 3), v), (hSTATE pMTR, st1)] with
    mtr := { op := op } }

/-- Witnesses for SealAndUnseal: each command admitted, SEAL and UNSEAL from the OWNER's session 3 (`test_comes`), and each operation with
bank 3 as it then stands. -/
theorem test_witness_seal :
    mgpRuns (muslin 1 1 none) = true ∧
    admits (arrived (withSession .owner (muslin 1 1 none)) 3 { role := .owner, path := .eth }) (.session 3 1) pMTR 0x40 [1#32] true = true ∧
    admits (arrived (withSession .owner (muslin 8 8 none)) 3 { role := .owner, path := .eth }) (.session 3 1) pMTR 0x40 [2#32] true = true ∧
    (withSession .owner (muslin 8 8 none)).mtr.op = none ∧
    admits (arrived (withSession .owner (muslin 8 8 (some (.unsealing 14 15)))) 3 { role := .owner, path := .eth }) (.session 3 1) pMTR 0x40 [2#32]
      true = true ∧
    admits (muslin 8 8 none) .mgp pMTR 0x40 [3#32] (flag (muslin 8 8 none) MTR.MSTAT_SEALN) = true ∧
    (muslin 1 1 (some (.sealing ⟨[], [], 1⟩ 14 15))).mtr.op = some (.sealing ⟨[], [], 1⟩ 14 15) ∧
    designated (muslin 1 1 none) 3 = true ∧ bstate (muslin 1 1 none) 3 = stIDLE ∧
    (muslin 1 1 none).pwr.l0Bad = false ∧ (bank (muslin 1 1 none) 3).checking = false ∧ designated (muslin 1 1 none) 4 = false ∧
    (muslin 8 8 (some (.unsealing 14 15))).mtr.op = some (.unsealing 14 15) ∧
    ({ muslin 1 1 none with mtr := { verify := some [] } } : State).mtr.verify = some [] := by
  decide +kernel

/-- R163: sealing takes MTR and the designated bank to SEALED and counts one event. -/
theorem test_sealed :
    (nextOf (exec .sealed (muslin 1 1 (some (.sealing ⟨[], [], 1⟩ 14 15))))).map
      (fun t => (pstate t pMTR, bstate t 3, get t MTR.EVCNT_CNT, t.mtr.audit.length)) = some (8, 8, 1, 1) := by
  decide +kernel

/-- Witnesses for SealIsWatched. -/
theorem test_witness_sealWatched :
    (let s : State := { muslin 8 8 none with mtr := { record := some ⟨[], [], 1⟩ } }
     pstate s pMTR = stSEALED ∧ mtpRuns s = true ∧ s.mtr.record = some ⟨[], [], 1⟩ ∧ recFields s ≠ [] ∧ (recFields s).map (·.1) = legalFlds s ∧
     (recFields s).all (fun x => decide (x.2 < 2 ^ x.1.width)) = true) ∧
    pstate (muslin 7 8 none) pMTR = stFAULT ∧
    (let s : State := setCtx { puts (muslin 8 8 none) [(MTR.MCTXLO_CTX, 1), (STM.CSTAT_STATE 1, 3), (hSTATE pCNV, 3)] with
        mtr := { seals := [(0, none)] } } 1 { ckDue := false }
     isMctx s 1 = true ∧ cstate s 1 ≠ stOFF ∧ sealOn s = true ∧ ckIsDue s 1 = false ∧ cnvUp s = true ∧ ckLen true ≤ freeWords s (classOf s 1)) ∧
    mtpRuns (put pwr (MGT.PRST_ST 1) 1) = false := by
  decide +kernel

/-- A powered hub with the stream pages running and context 1, of channel 0, in a state; its queue has 16 KiB words. -/
def streaming (v : Nat) : State :=
  puts pwr [(hSTATE pSCH, 3), (hSTATE pAXS, 1), (hSTATE pSTM, 3), (hSTATE pQUE, 3), (hSTATE pCDC, 3), (hSTATE pCNV, 3),
    (STM.CSEL_CTX, 1), (STM.CCFG_CEN 1, 1), (STM.CSTAT_STATE 1, v), (STM.CCFG_PATH 1, 1), (STM.CSET_CH 0 1, 1), (STM.CSTAT_NCH 1, 1),
    (STM.CCFG_BSLOT 1, 1)]

/-- A closed block of one slot with its value. -/
def oneBlk : ClosedBlk := { slots := [⟨0, 0, false, false, [(0, some {})]⟩], w5 := 4, last := false }

/-- Witnesses for StreamAssembly. -/
theorem test_witness_stream :
    mgpRuns (streaming 3) = true ∧ get (streaming 3) STM.CSEL_CTX = 1 ∧ admits (streaming 3) .mgp pSTM 0x4C [1#32] false = true ∧
    admits (streaming 5) .mgp pSTM 0x4C [2#32] false = true ∧ admits (streaming 5) .mgp pSTM 0x4C [3#32] false = true ∧
    ctxActive (streaming 5) 1 = true ∧
    (let s := setCtx (streaming 3) 1 { closed := [oneBlk] }
     (ctx s 1).closed = [oneBlk] ∧ oneBlk.slots.all Slot.full = true ∧
     (queue s 1).part = 0 ∧ (itemWords s 1 oneBlk).length ≤ (queue s 1).part + queRoom s 1 ∧
     queRoom (put s (QUE.QCFG_DEPTH 1) 0) 1 < (itemWords (put s (QUE.QCFG_DEPTH 1) 0) 1 oneBlk).length ∧ (queue s 1).heldAt = none ∧
     (queue (setQueue s 1 { heldAt := some 0 }) 1).heldAt.isSome = true) ∧
    pstate (streaming 3) pQUE = stRUN ∧ flag (put (streaming 3) (QUE.QSTAT_HELD 63) 1) (QUE.QSTAT_HELD 63) = true ∧
    pstate (streaming 3) pSTM ≠ stFAULT := by
  decide +kernel

/-- R181, R197: the item of one slot is 8 header words and one sample word. -/
theorem test_item_length : (itemWords (streaming 3) 1 oneBlk).length = 9 := by
  decide +kernel

/-- Mirror queue 64 selected, with two items of which `k` words of the first are read. -/
def mirrorQ (k n : Nat) : State :=
  setQueue (put (streaming 3) QUE.QSEL_Q 64) 64
    { items := [⟨1, 0xA1, [1#32, 2#32], 8, false⟩, ⟨1, 0xA1, [3#32], 8, false⟩], popped := k, flushN := n }

/-- Witnesses for QueueReads. -/
theorem test_witness_queueReads :
    mgpRuns (mirrorQ 0 0) = true ∧ worst (violRead (mirrorQ 0 0) .mgp pQUE (0x400 + 4 * 255) 1) = none ∧
    (queue (mirrorQ 0 0) 64).items ≠ [] ∧ worst (violRead (put (streaming 3) QUE.QSEL_Q 67) .mgp pQUE 0x400 1) = none ∧
    (queue (put (streaming 3) QUE.QSEL_Q 67) 67).items = [] ∧ admits (mirrorQ 0 0) .mgp pQUE 0x70 [1#32] false = true ∧
    flag (put (mirrorQ 1 2) (QUE.QSTAT_FLP 64) 1) (QUE.QSTAT_FLP 64) = true ∧ (queue (mirrorQ 1 2) 64).items.length = 2 ∧
    (queue (mirrorQ 1 2) 64).doomed = [] ∧ (queue (setQueue (mirrorQ 1 2) 64 { doomed := [1] }) 64).doomed ≠ [] := by
  decide +kernel

/-- R210: a flush with the first item half read keeps that item. -/
theorem test_flush_keeps :
    (nextOf (exec (.flushed 64) (put (mirrorQ 1 2) (QUE.QSTAT_FLP 64) 1))).map (fun t => (queue t 64).items.length) = some 1 := by
  decide +kernel

/-- Context 1 with an item in its queue, and with that item in the codec on the plain path. -/
def queued : State :=
  { setQueue (streaming 3) 1 { items := [⟨1, 0xA1, itemWords (streaming 3) 1 oneBlk, 8, false⟩] } with notices := [1] }
def inCodec : State := { setCtx (streaming 3) 1 { ckDue := false } with flights := [⟨⟨1, 0xA1, itemWords (streaming 3) 1 oneBlk, 8, false⟩, none, false, false, false⟩] }

/-- Witnesses for CodecPassesBlocks: CANVAS with room, and CNV OFF. -/
theorem test_witness_codec :
    (queue queued 1).items.length = 1 ∧ domainOn queued 12 = true ∧ nextTaken queued = some 1 ∧ nextTaken inCodec ≠ some 1 ∧ domainOn (st [(PWR.PDST_PG, 0)]) 12 = false ∧
    (inCodec.flights.find? fun f => f.item.ctx = 1) = some ⟨⟨1, 0xA1, itemWords (streaming 3) 1 oneBlk, 8, false⟩, none, false, false, false⟩ ∧
    isMctx inCodec 1 = false ∧ classOf inCodec 1 = 1 ∧ (ctx inCodec 1).wait = [] ∧ (ctx inCodec 1).decl = none ∧
    (ctx inCodec 1).keyDue = none ∧ (ctx inCodec 1).mkDue = none ∧ ckIsDue inCodec 1 = false ∧ (ctx inCodec 1).sinceMk < 4096 ∧
    fits inCodec 1 13 0 = true ∧ fits (put inCodec (hSTATE pCNV) 0) 1 13 0 = false ∧ cnvUp inCodec = true ∧
    ckLen false ≤ freeWords inCodec (classOf inCodec 1) ∧ gapLen ≤ freeWords inCodec (classOf inCodec 1) ∧ cstate inCodec 1 = stRUN ∧
    (let s := setCtx inCodec 1 { ckDue := false, wait := [{ reason := 5, t := 0, w5 := 0 }] }
     (ctx s 1).wait = [{ reason := 5, t := 0, w5 := 0 }] ∧ gapReady s 1 none { reason := 5, t := 0, w5 := 0 } = true) ∧
    gapReady (setCtx inCodec 1 { closed := [oneBlk] }) 1 none { reason := 5, t := 9, w5 := 0 } = false := by
  decide +kernel

/-- The codec in RUN with engine 3 in a state. -/
def eng (v : Nat) (fc : Bool) (byp : Nat) : State :=
  setEngine (puts pwr [(hSTATE pCDC, 3), (hSTATE pCTX, 1), (CDC.ECTL_BYP, byp), (CDC.DSTAT_STATE 4, 2)]) 3 { st := v, fromClear := fc }

/-- Context 1 in IDLE, selected in CTX. -/
def ctxIdle : State := puts (eng 1 false 0) [(CTX.XSEL_CTX, 1), (STM.CSTAT_STATE 1, 1)]

/-- Witnesses for EnginesAndContextState; the image restored is the one just snapped. -/
theorem test_witness_engines :
    mgpRuns (eng 7 false 0) = true ∧ admits (eng 7 false 0) .mgp pCDC 0x40 [wd (3 * 256 + 0 + 1)] false = true ∧
    admits (eng 5 false 8) .mgp pCDC 0x40 [wd (3 * 256 + 1 + 1)] false = true ∧ admits (eng 1 false 0) .mgp pCDC 0x44 [wd 8] false = true ∧
    admits (eng 5 false 8) .mgp pCDC 0x44 [wd 0] false = true ∧
    admits ctxIdle .mgp pCTX 0x44 [1#32] false = true ∧ (imageOf ctxIdle 1).length = 16 ∧
    admits (putStage ctxIdle (imageOf ctxIdle 1)) .mgp pCTX 0x44 [2#32] false = true ∧
    (stagedHist (putStage ctxIdle (imageOf ctxIdle 1)) (wbits (stage (putStage ctxIdle (imageOf ctxIdle 1)) 0) 9 0)).isSome = true ∧
    admits ctxIdle .mgp pCTX 0x44 [3#32] false = true ∧ (engine (eng 6 true 0) 3).st = stTEST ∧ bypassed (eng 6 true 8) 3 = true ∧
    (engine (eng 1 false 0) 3).st = stIDLE ∧ pstate (eng 1 false 0) pCDC = stRUN ∧
    (let s := setJob (eng 3 false 0) 4 { eng := some 3 }
     get s (CDC.DSTAT_STATE 4) = 2 ∧ (job s 4).eng = some 3 ∧ (engine s 3).st = stRUN) := by
  decide +kernel

/-- An ENCODE job of one channel and one slot, from 0xFFFE0000 to 0xFFFF0000. -/
def oneDsc (dlen : Nat) : List Word := [wd 0x14000000, wd 0x00010001, wd 0x1FFFC000, 1#32, wd 0x1FFFE000, wd dlen, 0#32, 0#32]

/-- CDC in RUN with two work segments and job 4 of that descriptor in a state. -/
def jobIn (v dlen : Nat) : State :=
  memPut (setJob (puts pwr [(hSTATE pCDC, 3), (hSTATE pCNV, 1), (CNV.WRES_N, 2), (CDC.DSTAT_STATE 4, v), (CDC.DSTAT_OP 4, 1)]) 4 { dsc := oneDsc dlen })
    0xFFFE0000 0x00000180#32

/-- Witnesses for DescriptorJobs: a job that completes, one whose output is full, and one on an untagged word. -/
theorem test_witness_jobs :
    mgpRuns (jobIn 0 64) = true ∧ admits (jobIn 0 64) .mgp pCDC 0x80 (oneDsc 64 ++ [1#32]) false = true ∧ (oneDsc 64).length = 8 ∧
    (jobEnd (jobIn 2 64) 4).err % 16 = 0 ∧ engFree (setEngine (jobIn 1 64) 0 { st := 1 }) 0 = true ∧
    ((List.range 16).find? fun j => get (jobIn 0 64) (CDC.DSTAT_STATE j) = 0) = some 0 ∧
    admits (puts (jobIn 3 64) [(CDC.DSC 4, 0x1FFFE000), (CDC.DSC 5, 64)]) .mgp pCDC 0xA0 [wd (4 * 65536 + 2)] false = true ∧
    admits (jobIn 2 64) .mgp pCDC 0xA0 [wd (4 * 65536 + 3)] false = true ∧ admits (jobIn 5 64) .mgp pCDC 0xA0 [wd (4 * 65536 + 4)] false = true ∧
    (let s := setEngine (jobIn 1 64) 0 { st := 1 }
     pickEngine s = some 0 ∧ get s PWR.SLVL_LEVEL < 2 ∧ s.queues = []) ∧
    (jobEnd (jobIn 2 64) 4).kind = 0 ∧ (jobEnd (jobIn 2 0) 4).kind = 1 ∧ (jobEnd (memPut (jobIn 2 64) 0xFFFE0000 0#32) 4).kind = 2 := by
  decide +kernel

/-- A running east trunk port with credit, egress on it, and context 1 with block 7 retained. -/
def egress : State :=
  let s := puts pwr [(hSTATE pCNV, 3), (hSTATE pDOM, 3), (hSTATE pTKE, 3), (DOM.DPOS_POS, 5), (DOM.CPATH_CHE, 1), (hLIM pCNV, 65536)]
  setLink { setCtx s 1 { newest := some 7 } with cnv := { blocks := [{ ctx := 1, seq := 7, cls := 1, pieces := [(0x10000000, 12)], len := 12, slots := 1, t := 0, tlast := 0, tag := [] }] } } 0
    { txact := 15, farMax := some 2057, cred := 100 }

/-- Witnesses for CanvasAcknowledgesAndSends. -/
theorem test_witness_canvas :
    linkRuns egress 0 = true ∧ addressed egress 5 0 = true ∧ addressed egress 4 0 = false ∧ (ctx egress 1).newest = some 7 ∧
    (ctx egress 1).acked = none ∧
    (ctx (setCtx egress 1 { newest := some 7, acked := some 7 }) 1).acked = some 7 ∧ seqBack 7 7 < 2 ^ 31 ∧ seqBack (fullSeq egress 1 7) 7 < 2 ^ 31 ∧ 2 ^ 31 ≤ seqBack (fullSeq egress 1 8) 7 ∧
    (egress.cnv.blocks.any fun b => b.ctx = 1 && b.seq = fullSeq egress 1 7 && !b.gone) = true ∧
    (egress.cnv.blocks.any fun b => b.ctx = 1 && b.seq = fullSeq egress 1 6 && !b.gone) = false ∧
    egressPort egress = some 0 ∧ roleSends egress = true ∧ cnvUp egress = true ∧ (link egress 0).deficit ≤ 0 ∧
    (nextBlock egress).map (fun x => (x.1.seq, x.2)) = some (7, false) ∧ mayStart egress 0 12 = true ∧
    flag egress CNV.SCRUB_EN = true ∧ domainOn egress 13 = true ∧ [5, 8].getLast? = some 8 ∧ pstate egress pCNV = stRUN := by
  decide +kernel

/-- TSU in a state with a source, everything powered. -/
def tsuIn (v : Nat) : State := puts pwr [(hSTATE pTSU, v), (TSU.TSTAT_SRC, 2), (TSU.TSTAT_QPTP, 1), (TSU.TSETL_SEC, 7), (TSU.TADJ_NS, 500)]

/-- Witnesses for TimeCommandsAndServo. -/
theorem test_witness_timeCommands :
    mgpRuns (tsuIn 3) = true ∧ admits (tsuIn 3) .mgp pTSU 0x70 [1#32] false = true ∧ admits (tsuIn 3) .mgp pTSU 0x70 [2#32] false = true ∧
    (now32 (tsuIn 3) : Int) + tadj32 (tsuIn 3) < 2 ^ 48 * 1000000000 * 2 ^ 32 ∧
    admits (puts (tsuIn 5) [(TSU.TSTAT_PSH, 1), (TSU.TSTAT_AUNK, 1)]) .mgp pTSU 0x70 [3#32] false = true ∧
    admits (tsuIn 3) .mgp pTSU 0x98 [5#32] false = true ∧ flag (tsuIn 3) TSU.TSTAT_SLEW = false ∧
    admits (tsuIn 3) .mgp pTSU 0x48 [wd 0x411B00000, wd (0x411B00000 / 2 ^ 32)] false = true ∧
    flag (tsuIn 3) TSU.TCTL_SERVO = true ∧ pstate (tsuIn 3) pTSU = stRUN ∧
    (get (tsuIn 3) DOM.DROLE_AUTH ≠ 3 ∧ flag (tsuIn 3) TSU.TCTL_ASTEP = true ∧
      (pstate (tsuIn 3) pSCH = stIDLE ∨ pstate (tsuIn 3) pSCH = stOFF) ∧ get (tsuIn 3) TSU.STPTH_US * 1000 < (-200000 : Int).natAbs) ∧
    (0 : Int) ≤ (now32 (tsuIn 3) : Int) - (-200000) * 2 ^ 32 := by
  decide +kernel

/-- R261: STEP by TADJ = 500 ns. -/
theorem test_step : (nextOf (exec (.tcmdStep .mgp) (tsuIn 3))).map (·.time) = some ⟨0, 500, 0⟩ := by
  decide +kernel

/-- Witnesses for TimeSources: each source, and a difference of 2 µs with trunk time selected. -/
theorem test_witness_sources :
    (let s := { setLink (puts (tsuIn 3) [(hSTATE pTKE, 3), (ETH.ELNK_UP, 1), (ETH.GMIDL_ID, 7)]) 0 { since := 64 } with dom := { oup := [(0, some (0, 0))] } }
     timeSide s = 0 ∧ linkRuns s 0 = true ∧ 64 ≤ (link s 0).since ∧ tget s.dom.oup 0 none = some (0, 0) ∧ s.cyc ≤ 0 + 73728 ∧ mgpRuns s = true ∧
     flag s ETH.ELNK_UP = true ∧ get s ETH.PTPCFG_ROLE = 1 ∧ masterId s ≠ 0) ∧
    (let s := puts (tsuIn 5) [(TSU.TSTAT_PSH, 1)]
     flag s TSU.TSTAT_QPTP = true ∧ pstate s pTSU = stHOLD ∧ flag s TSU.TSTAT_PSH = true) ∧
    (10000 * ((9999000 : Int) - refNominal 0).natAbs ≤ refNominal 0 ∧ refNominal 0 < 10000 * ((9998999 : Int) - refNominal 0).natAbs) ∧
    qBit 1 = some TSU.TSTAT_QTK ∧ qBit 2 = some TSU.TSTAT_QPTP ∧ qBit 3 = some TSU.TSTAT_QPPS ∧
    (let s := puts (tsuIn 3) [(AXS.PPSCFG_PEN, 1), (TSU.REFCFG_REN, 1)]
     flag s AXS.PPSCFG_PEN = true ∧ flag s TSU.REFCFG_REN = true) ∧
    flag (tsuIn 3) TSU.TSTAT_QPTP = true ∧ pstate (tsuIn 3) pTSU ≠ stHOLD ∧
    (let s := puts (tsuIn 3) [(TSU.TSTAT_SRC, 1), (TSU.TSTAT_QTK, 1), (TSU.PTOFS_OFS, 512000)]
     flag s TSU.TSTAT_PSH = false ∧ get s TSU.TSTAT_SRC ≠ 2 ∧ flag s TSU.TSTAT_QTK = true ∧ xOut s = true ∧ s.tsu.xArmed = true) := by
  decide +kernel

/-- R264: without another source the loss of PTP leaves TSU free-running in IDLE. -/
theorem test_source_lost :
    (nextOf (exec (.sourceLost 2) (tsuIn 3))).map (fun t => (pstate t pTSU, get t TSU.TSTAT_FRN, get t TSU.TSTAT_SRC)) = some (1, 1, 0) := by
  decide +kernel

/-- Witnesses for PtpAndEthernet: a full FIFO, an exchange with a step, both ends of a path step, another master. -/
theorem test_witness_ptp :
    flag (tsuIn 3) ETH.PTPCFG_ONESTEP = true ∧ flag (put (tsuIn 3) ETH.PTPCFG_ONESTEP 0) ETH.PTPCFG_ONESTEP = false ∧
    flag (put (tsuIn 3) ETH.ELNK_UP 1) ETH.ELNK_UP = true ∧ ptpSlave (put (tsuIn 3) ETH.ELNK_UP 1) = true ∧
    ({ tsuIn 3 with tsu := { fifo := List.replicate 16 (2, 0) } } : State).tsu.fifo.length = 16 ∧
    (let s : State := { tsuIn 3 with tsu := { mpds := [1000] } }
     (!s.tsu.mpds.isEmpty && decide (get s TSU.PDSTEP_NS * 256 < (((200000 : Nat) : Int) - get s TSU.MPDF_D).natAbs)) = true ∧
     get s TSU.TSTAT_SRC = 2 ∧ pstate s pTSU = stRUN) ∧
    (let s := puts (tsuIn 5) [(TSU.TSTAT_PSH, 1), (TSU.TSTAT_QTK, 1)]
     flag s TSU.TSTAT_PSH = true ∧ flag s TSU.TSTAT_AUNK = false ∧ usable s 1 = true ∧ usable (put s TSU.TSTAT_QTK 0) 1 = false) ∧
    (let s := puts (tsuIn 3) [(ETH.ELNK_UP, 1), (ETH.PTPCFG_ROLE, 2), (ETH.PTPCFG_DELAY, 1)]
     exchanges s = true ∧ ptpSlave s = false) ∧ mgpRuns (put (tsuIn 3) (MGT.PRST_ST 0) 1) = false ∧
    (7 : Nat) ≠ get (tsuIn 3) ETH.GMIDH_ID * 2 ^ 32 + get (tsuIn 3) ETH.GMIDL_ID ∧ mgpRuns (tsuIn 3) = true ∧
    get (tsuIn 3) ETH.PTPCFG_ROLE = 1 ∧ admits (tsuIn 3) .mgp pETH 0x40 [wd 2] false = true ∧ get (tsuIn 3) ETH.ECFG_MODE = 1 ∧
    pstate (put (tsuIn 3) (hSTATE pETH) 1) pETH = stIDLE ∧ flag (put (tsuIn 3) ETH.ELNK_UP 1) ETH.ELNK_UP = true := by
  decide +kernel

/-- A hub whose link `l` is in state `v` with all its lanes. -/
def linkIn (l v : Nat) : State :=
  setLink (puts pwr ((hSTATE pDOM, 3) :: if l < 2 then [(hSTATE (pTKE + l), v)] else [])) l
    { st := v, rxact := allLanes l, txact := allLanes l, qual := allLanes l, farMax := some 2057, cred := 100 }

/-- Witnesses for LinkPortCommands. -/
theorem test_witness_linkCommands : ∀ p < 2,
    admits (linkIn p 3) .mgp (pTKE + p) 0x40 [1#32] false = true ∧ linkRuns (linkIn p 3) p = true ∧
    admits (linkIn p 3) .mgp (pTKE + p) 0x40 [2#32] false = true ∧ admits (linkIn p 1) .mgp (pTKE + p) 0x40 [3#32] false = true ∧
    admits (linkIn p 3) .mgp (pTKE + p) 0x40 [4#32] false = true := by
  decide +kernel

/-- R300: TRAIN in RUN raises LINKDN and starts bring-up; TRAIN is rejected with STATE in TEST. -/
theorem test_train :
    (nextOf (exec (.lcmdTrain .mgp 0) (linkIn 0 3))).map (fun t => (pstate t pTKE, evt t pTKE 9)) = some (2, true) ∧
    (nextOf (exec (.lcmdTrain .mgp 0) (linkIn 0 6))).map (fun t => (pstate t pTKE, get t (hREASON pTKE))) = some (6, 1) := by
  decide +kernel

/-- R282: on an inverted lane the receiver reads the same control field. -/
theorem test_readFrame :
    readFrame ((trainLevels (ctlSeal (2 ^ 41 + 2 ^ 24)) 1).take 224) = some (false, ctlSeal (2 ^ 41 + 2 ^ 24)) ∧
    readFrame (((trainLevels (ctlSeal (2 ^ 41 + 2 ^ 24)) 1).take 224).map (-·)) = some (true, ctlSeal (2 ^ 41 + 2 ^ 24)) ∧
    readFrame (List.replicate 224 1) = none := by
  decide +kernel

/-- A control field: FCOK, RRDY, PCREQ and the request for preset, on lane 1. -/
def presetField : Nat := ctlSeal (2 ^ 41 + 2 ^ 40 + 2 ^ 39 + 2 ^ 38 + 2 ^ 24)

/-- A link ready for data. -/
def ready (l : Nat) : State :=
  let s := put (linkIn l 2) (MGT.PRST_ST 2) 2
  setLink s l { link s l with rrdyOwn := true, rrdyFar := true, failed := true }

/-- Witnesses for BringUp. -/
theorem test_witness_bringUp : (∀ l < 3, linkSt (ready l) l = stARMED ∧ (link (ready l) l).fcokFar = false ∧ (link (ready l) l).fbrx = false ∧
      (link (ready l) l).rrdyOwn = true ∧ (link (ready l) l).rrdyFar = true ∧ 3 &&& allLanes l ≠ 0 ∧ 1 &&& allLanes l ≠ 0 ∧ lkpRuns (ready l) = true ∧
      readFrame ((trainLevels presetField 1).take 224) = some (false, presetField) ∧
      lkpRuns (put (ready l) (MGT.PRST_ST 2) 1) = false ∧
      (laneAt (link (ready l) l) 1).stat = 0 ∧ (laneAt (link (setLink (ready l) l { link (ready l) l with lanes := [(1, { stat := 21 })] }) l) 1).stat ≠ 0 ∧
      (link (ready l) l).failed = true ∧ bit (allLanes l) (cbits presetField 26 24) = true ∧
      tapsOk (laneAt (link (ready l) l) 1).cm1 (laneAt (link (ready l) l) 1).c0 (laneAt (link (ready l) l) 1).cp1 = true) ∧
    bit (ctlSeal (2 ^ 30 + 2 ^ 24)) 30 = true ∧ ctlGood (ctlSeal (2 ^ 30 + 2 ^ 24)) = true ∧ ctlGood presetField = true ∧ bit presetField 41 = true ∧ ctlGood (presetField + 1) = false ∧
    ctlGood (ctlSeal (2 ^ 24)) = true ∧ cbits (ctlSeal (2 ^ 24)) 47 41 = 0 ∧
    get (put (ready 0) (TK.LCFG_PCM 0) 1) (TK.LCFG_PCM 0) = 1 ∧ get (put (ready 0) (TK.LCFG_PCM 0) 2) (TK.LCFG_PCM 0) = 2 := by
  decide +kernel

/-- R285 step 7: data begins on the three locked lanes, the fourth retrains. -/
theorem test_linkup :
    (nextOf (exec (.linkup 0 ⟨7, 15⟩ 36000) (ready 0))).map (fun t => ((link t 0).rxact, (link t 0).retr, pstate t pTKE, get t (TK.BRT_US 0))) =
      some (7, 8, 3, 36000) := by
  decide +kernel

/-- Witnesses for LinkDown. -/
theorem test_witness_linkDown : (let s : State := { linkIn 2 3 with twl := { silent := false } }
     s.twl.pairFail = false ∧ twinSilent s = false) ∧ (∀ l < 3, linkRuns (linkIn l 3) l = true ∧ linkSt (linkIn l 3) l ≠ stOFF) ∧
    (let s : State := { linkIn 2 3 with twl := { strap := 1 } }
     linkSt s 2 ≠ stOFF ∧ s.twl.strap ≠ 0 ∧ pstate s pTWL ≠ stOFF ∧ pstate s pTWL ≠ stSEALED) := by
  decide +kernel

/-- R290: a far CAPS of 2,056 words takes the port down. -/
theorem test_caps :
    (nextOf (exec (.caps 1 2056 1) (linkIn 1 3))).map (fun t => (pstate t pTKW, evt t pTKW 9, evt t pTKW 15, get t (TK.TRNF_N 1))) =
      some (2, true, true, 1) ∧
    (nextOf (exec (.caps 1 4095 1) (linkIn 1 3))).map (fun t => negMax t 1) = some 2057 := by
  decide +kernel

/-- R286: 0 times an element of the field is 0. -/
theorem test_gfMul_zero (x : Nat) : gfMul 0 x = 0 := by
  have h : ∀ l : List Nat, l.foldl (fun acc i => gfDouble acc ^^^ if bit x i then 0 else 0) 0 = 0 := by
    intro l
    induction l with
    | nil => rfl
    | cons a l ih => rw [List.foldl_cons, ite_self]; exact ih
  exact h _

/-- R286: the polynomial 0 is 0 everywhere. -/
theorem test_gfEval_zero (n x : Nat) : gfEval (List.replicate n 0) x = 0 := by
  induction n with
  | zero => rfl
  | succ n ih => rw [List.replicate_succ, gfEval, List.foldr_cons]; rw [gfEval] at ih; rw [ih, test_gfMul_zero]; rfl

/-- R286: 544 zero symbols are a codeword. -/
theorem test_rsDecode_zero (n : Nat) (hn : n = 544) : rsDecode (List.replicate n 0) = some (List.replicate n 0, 0) := by
  simp [rsDecode, rsSyndromes, test_gfEval_zero, hn, -List.reduceReplicate]

/-- Zero bits make zero symbols. -/
theorem test_symbols_zero (n : Nat) : symbols n (List.replicate (10 * n) false) = List.replicate n 0 := by
  induction n with
  | zero => rfl
  | succ n ih =>
    rw [symbols, List.take_replicate, List.drop_replicate, Nat.mul_succ, Nat.add_sub_cancel, Nat.min_eq_left (Nat.le_add_left _ _), ih,
      List.replicate_succ]
    rfl

/-- R286: 5,440 low levels of an NRZ lane are the codeword of CSN 0 with zeros throughout. -/
theorem test_receive_zero (x : Link) (h : x.fbrx = true) (hi : bit x.inv 0 = false) :
    (receive x 0 (List.replicate (10 * 544) (-3))).1 = some ⟨0, List.replicate 160 0#32, 0, 0⟩ := by
  have h1 : openCw (List.replicate 544 0) 0 = ⟨0, List.replicate 160 0#32, 0, 0⟩ := by decide +kernel
  have h2 : decide (0 < (-3 : Int)) = false := rfl
  have h3 : 10 * 544 / 10 = 544 := rfl
  simp only [receive, unline, h, hi, Bool.false_eq_true, if_false, if_true, List.map_replicate, List.length_replicate, h2, h3,
    test_symbols_zero, test_rsDecode_zero 544 rfl, Option.map_some, h1]

/-- A running east port whose receive direction is NRZ. -/
def nrzIn : State := setLink (linkIn 0 3) 0 { link (linkIn 0 3) 0 with fbrx := true }

/-- Witness for CodewordsAndReplay: that codeword is the next one and completes no-ops alone. -/
theorem test_witness_codeword : linkRuns nrzIn 0 = true ∧
    (receive (link nrzIn 0) 0 (List.replicate (10 * 544) (-3))).1 = some ⟨0, List.replicate 160 0#32, 0, 0⟩ ∧ (link nrzIn 0).reorder = [] ∧
    (link nrzIn 0).rxc = none ∧ (∀ m ∈ ((scramble (scrInit 0) (List.replicate 160 0#32)).foldl takeWord (link nrzIn 0, [])).2, cbits m 47 44 = 0) ∧
    (laneAt (link nrzIn 0) (laneAtPos (link nrzIn 0) 0)).rq.length ≠ 5 :=
  ⟨by decide +kernel, test_receive_zero _ (by decide +kernel) (by decide +kernel), by decide +kernel⟩

/-- Witnesses for CodewordsAndReplay. -/
theorem test_witness_codewords :
    (let s := setLink (linkIn 0 3) 0 { link (linkIn 0 3) 0 with lanes := [(0, { bad := 7 })] }
     (receive (link s 0) 0 []).1 = none ∧ 7 ≤ (laneAt (link s 0) (laneAtPos (link s 0) 0)).bad ∧ bit (link s 0).rxact 0 = true ∧
     bit (link s 0).retr 0 = false ∧ laneSet (link s 0).rxact 0 false ≠ 0) ∧
    (laneAt (link (linkIn 0 3) 0) (laneAtPos (link (linkIn 0 3) 0) 0)).bad < 7 ∧ 7 ≤ negMax (linkIn 2 3) 2 ∧
    (receive (link (linkIn 0 3) 0) 0 []).1 = none ∧ (∀ l < 3, linkRuns (linkIn l 3) l = true ∧ (link (linkIn l 3) l).reorder = [] ∧
      (link (linkIn l 3) l).txact % 16 ≠ 0 ∧ (link (linkIn l 3) l).stalled = false ∧ (link (linkIn l 3) l).parts = [] ∧ (link (linkIn l 3) l).held = []) ∧
    (let s := setLink (linkIn 0 3) 0 { link (linkIn 0 3) 0 with replay := [⟨7, 2, []⟩, ⟨8, 3, []⟩] }
     2048 ≤ (7 + 4096 - 8) % 4096 ∧ (⟨7, 2, []⟩ : SentCw) ∈ (link s 0).replay) ∧
    linkRuns (linkIn 0 3) 1 = false ∧ 12 ≤ negMax (linkIn 0 3) 0 ∧
    (let s := setLink (put (linkIn 0 3) (hSTATE pTKW) 3) 1 (link (linkIn 0 3) 0)
     mayStart s 1 12 = true ∧ (link s 1).pass = [] ∧ ownWaits s 1 = false) ∧
    (let m0 : Word := wd (37 * 2 ^ 20)
     wbits m0 27 20 ≠ 255 ∧ toMe (put (linkIn 0 3) DOM.DPOS_POS 37) m0 = true) := by
  decide +kernel

/-- R292: a codeword 8 or more above a missing one asks for it; R290: FLEN 0 is dropped. -/
theorem test_nak :
    (takeCw (linkIn 0 3) 0 0 ⟨7, [], 0, 128⟩).out = [] ∧ (takeCw (linkIn 0 3) 0 0 ⟨8, [], 0, 128⟩).out = [.link 0 2 0] ∧
    (nextOf (exec (.zlpFrame 0 0 0 []) (linkIn 0 3))).map (fun t => get t (TK.OVLEN_N 0)) = some 1 := by
  decide +kernel

/-- A running link with lane 1 in retrain after 9 tries, quiet idle permitted. -/
def laneOut (l : Nat) : State :=
  let s := put (put (linkIn l 3) (MGT.PRST_ST 2) 2) (TK.LCFG_QEN (l % 2)) 1
  setLink s l { link s l with rxact := allLanes l - 2, retr := 2, lanes := [(1, { tries := 9 })], replay := [⟨934, 1, []⟩] }

/-- Witnesses for LanesDropAndReturn. -/
theorem test_witness_lanes : (∀ l < 3, linkRuns (linkIn l 3) l = true ∧ bit (link (linkIn l 3) l).rxact 1 = true ∧
      bit (link (linkIn l 3) l).retr 1 = false ∧ laneSet (link (linkIn l 3) l).rxact 1 false ≠ 0 ∧
      (link (linkIn l 3) l).txact &&& (15 - 2) ≠ 0 ∧ bit (link (laneOut l) l).retr 1 = true ∧ lkpRuns (laneOut l) = true ∧
      lkpRuns (put (linkIn l 3) (MGT.PRST_ST 2) 1) = false ∧ (link (linkIn l 3) l).lost = false ∧
      9 ≤ (laneAt (link (laneOut l) l) 1).tries ∧ (laneAt (link (linkIn l 3) l) 1).tries < 9 ∧ linkRuns (laneOut l) l = true ∧
      (∀ j ∈ [4, 6, 8], (64 : Nat) / 2 ^ j % 4 ≠ 3) ∧ (∀ j ∈ [0, 2, 4], (21 : Nat) / 2 ^ j % 4 ≠ 3) ∧
      bit (2 &&& allLanes l) 1 = true ∧ bit (link (laneOut l) l).rxact 1 = false ∧
      ((link (laneOut l) l).replay.any fun c => bit 2 c.lane && decide ((c.csn + 4096 - 934) % 4096 < 2048)) = true ∧
      (link (linkIn l 3) l).rxact < 16 ∧ (link (linkIn l 3) l).retr < 16 ∧ (link (linkIn l 3) l).stalled = false ∧ (link (linkIn l 3) l).fbrx = false ∧ (link (linkIn l 3) l).quiet = false) ∧
    flag (laneOut 0) (TK.LCFG_QEN 0) = true ∧ (link (laneOut 0) 0).frames = [] ∧ (link (laneOut 0) 0).cur = [] ∧
    (let s := setLink (linkIn 0 3) 0 { link (linkIn 0 3) 0 with quiet := true, quietPrev := 15, txact := 1 }
     (link s 0).quiet = true ∧ (link s 0).exiting = false ∧ bit (link s 0).quietPrev 3 = true ∧ bit (link s 0).txact 3 = false ∧ (link s 0).txact < 16) := by
  decide +kernel

/-- The example of R294: lane 2 fails during codeword 0x3A6 (LKP, which would go on with LTRN, does not run). -/
theorem test_lanedn :
    (nextOf (exec (.lanedn 1 2 0x3A6) (put (linkIn 1 3) (MGT.PRST_ST 2) 1))).map (fun t => ((link t 1).rxact, (link t 1).retr, t.out)) =
      some (11, 4, [.link 1 3 (4 * 2 ^ 34 + 2 ^ 33 + 0x3A6 * 2 ^ 21)]) := by
  decide +kernel

/-- A hub at position 37 with both trunk ports and DOM running, and record generation 9 of domain 5 that names position `h`. -/
def inDomain (h : Nat) : State :=
  let s := puts pwr [(hSTATE pDOM, 3), (hSTATE pTKE, 3), (hSTATE pTKW, 3), (DOM.DPOS_POS, 37), (DOM.DID_ID, 5), (DOM.AGEN_GEN, 9),
    (DOM.DROLE_AUTH, if h = 37 then 1 else 2), (DOM.ASTG 1, 5), (DOM.ASTG 2, 10), (DOM.ASTG 3, 37), (MGT.PRST_ST 2, 2), (hSTATE pTSU, 3)]
  let x : Link := { txact := 15, rxact := 15, farMax := some 2057, cred := 100 }
  setLink (setLink { s with dom := { recPos := some h } } 0 x) 1 x

/-- Witnesses for AuthorityRecord; MGP's firmware acts as OWNER. -/
theorem test_witness_authority :
    admits (inDomain 12) .mgp pDOM 0x60 [1#32] true = true ∧ isHead (inDomain 12) = false ∧ isHead (inDomain 37) = true ∧
    admits (put (inDomain 37) (DOM.ASTG 3) 12) .mgp pDOM 0x60 [1#32] true = true ∧ admits (inDomain 12) .mgp pDOM 0x60 [2#32] false = true ∧
    (link (inDomain 12) 0).own = [] ∧ mayStart (inDomain 12) 0 45 = true ∧
    linkRuns (inDomain 12) 1 = true ∧ pstate (inDomain 12) pDOM ≠ stOFF ∧ newerBy 32 10 (get (inDomain 12) DOM.AGEN_GEN) = true ∧
    newerBy 32 9 (get (inDomain 12) DOM.AGEN_GEN) = false ∧ (inDomain 12).dom.recPos = some 12 := by
  decide +kernel

/-- R306: the head of generation 9 resigns to generation 10; the same generation with another position is a conflict. -/
theorem test_authority :
    (nextOf (exec (.authorityFrame 0 5 10 12 ⟨true, []⟩) (inDomain 37))).map (fun t => (get t DOM.DROLE_AUTH, evt t pDOM 14)) = some (2, true) ∧
    (nextOf (exec (.authorityFrame 0 5 9 40 ⟨true, []⟩) (inDomain 12))).map (fun t => (t.dom.recPos, evt t pDOM 13)) = some (some 12, true) := by
  decide +kernel

/-- Witnesses for BeaconsAndHops: own generation, an older one, a first copy and a repeated one. -/
theorem test_witness_beacons :
    linkRuns (inDomain 12) 0 = true ∧ pstate (inDomain 12) pDOM ≠ stOFF ∧ get (inDomain 12) DOM.AGEN_GEN % 65536 = 9 ∧
    newerBy 16 8 9 = false ∧ (inDomain 12).dom.recPos ≠ none ∧ tget (inDomain 12).dom.beats 0 [] = [] ∧ isHead (inDomain 12) = false ∧
    tget (inDomain 12).dom.topoFwd 0 none = none ∧ isHead (inDomain 37) = true ∧ newerBy 8 1 (topog (inDomain 12)) = true ∧
    newerBy 8 0 (topog (inDomain 12)) = false ∧ true ≠ flag (inDomain 12) DOM.CPATH_RLY := by
  decide +kernel

/-- R307: of two hop counts within HBTO the lower one stands, and the side with the lower count is time-facing. -/
theorem test_beacon :
    ((nextOf (exec (.beacon 1 12 9 20 0) (inDomain 12))).bind fun t => nextOf (exec (.beacon 1 12 9 30 0) t)).map
      (fun t => (get t DOM.HPATH_HOPW, get t DOM.HPATH_TSIDE, get t DOM.DROLE_HPOS)) = some (20, 1, 12) := by
  decide +kernel

/-- Witnesses for CreditTimeAndReports. -/
theorem test_witness_credit :
    linkRuns (inDomain 12) 0 = true ∧ linkRuns (inDomain 12) 1 = true ∧ get (inDomain 12) DOM.HPATH_TSIDE = 0 ∧ isHead (inDomain 12) = false ∧
    isKeeper (inDomain 12) = false ∧ lkpRuns (inDomain 12) = true ∧ isHead (inDomain 37) = true ∧
    isKeeper (put (inDomain 12) DOM.DROLE_KEEP 1) = true ∧ rootMoved (inDomain 12) 0 3 = false ∧
    (let s : State := puts (inDomain 12) [(DOM.DROLE_AUTH, 3), (DOM.HPATH_HOPE, 7)]
     rootMoved { s with dom := { s.dom with keeperPos := some 41, keepHops := [(0, 5)] } } 0 36 = true) := by
  decide +kernel

/-- R311: TKOFS = O_up − LOFS. -/
theorem test_tdist :
    (nextOf (exec (.tdist 0 1000 3) (put (inDomain 12) (TK.LOFS_OFS 0) 256))).map tkofs = some 744 := by
  decide +kernel

/-- Island hub 37, its former head 36 hops away. -/
def isle : State := { put (inDomain 1) DOM.DROLE_AUTH 3 with dom := { recPos := some 1, prehops := 36 } }

/-- Witnesses for Islands. -/
theorem test_witness_islands :
    pstate isle pDOM ≠ stOFF ∧ get (inDomain 12) DOM.DROLE_AUTH = 2 ∧ get isle DOM.DROLE_AUTH = 3 ∧ linkRuns isle 0 = true ∧
    isKeeper isle = false ∧ bestCand isle = none ∧
    (let s : State := { isle with dom := { isle.dom with best := some (50, 51) } }
     bestCand s = some (50, 51) ∧ outranks (50, 51) (40, 41) = false ∧ outranks (50, 51) (ownCand s) = false) ∧ (40, 41) ≠ ownCand isle ∧ outranks (ownCand isle) (40, 41) = true ∧
    outranks (ownCand isle) (30, 31) = false ∧ pstate isle pTSU ≠ stOFF ∧
    (let s := put isle DOM.HPATH_HOPE 36
     hearsHead s = true ∧ (tkofs s).natAbs ≤ get s DOM.RJTOL_NS * 256) := by
  decide +kernel

/-- The example of R323: hub 41 with PREHOPS 40 outranks hub 52 with PREHOPS 46. -/
theorem test_candidates : outranks (40, 41) (46, 52) = true ∧ outranks (46, 52) (40, 41) = false := by
  decide +kernel

/-- A twin unit at position 37 with strap `u` and role `r`, its twin link running and paired. -/
def twinIn (u r : Nat) : State :=
  let s := puts pwr [(hSTATE pTWL, 3), (TWL.TROLE_ROLE, r), (TWL.TROLE_PROLE, 3), (DOM.DPOS_POS, 37), (DOM.DPOS_UNIT, u), (SEC.OSTAT_ENDRS, 1)]
  setLink { s with twl := { strap := u, paired := true, silent := false } } 2
    { st := 3, txact := 3, rxact := 3, farMax := some 4095 }

/-- The same, not paired. -/
def alone (u r : Nat) : State := { twinIn u r with twl := { (twinIn u r).twl with paired := false } }

/-- Unit `u` with role `r` and a voltage quad of LEVEL 500 in bank 0: present at 2.5 V, not below. -/
def watching (u r : Nat) : State := puts (alone u r) [(BNK.QCFG_QM 0 0, 1), (BNK.QCFG_LEVEL 0 0, 500)]

/-- Witnesses for TwinRoles; the reset value of OGEN is 0. -/
theorem test_witness_twinRoles :
    admits (twinIn 1 3) .mgp pTWL 0x40 [1#32] false = true ∧ admits (alone 1 6) .mgp pTWL 0x40 [2#32] false = true ∧
    (alone 1 6).twl.paired = false ∧ admits (twinIn 1 2) .mgp pTWL 0x40 [3#32] false = true ∧
    admits (twinIn 1 3) .mgp pTWL 0x40 [4#32] false = true ∧ twin (twinIn 1 1) = true ∧ linkRuns (twinIn 1 1) 2 = true ∧
    role (alone 2 1) = rPAIRING ∧ role (twinIn 2 5) = rYIELD ∧ flag (twinIn 1 1) SEC.OSTAT_ENDRS = true ∧
    (twinIn 1 1).mtr.record = none ∧ (twinIn 1 1).mtr.op = none ∧ twinSilent (twinIn 1 1) = false ∧ twinUp (twinIn 1 2) = true ∧
    role (twinIn 1 2) = rACTIVE ∧ get (twinIn 1 2) TWL.TROLE_PROLE = rSTANDBY ∧ get (put (twinIn 1 2) TWL.TROLE_PROLE 1) TWL.TROLE_PROLE ≠ rSTANDBY ∧ exciteSeen (twinIn 1 1) = false ∧ (watching 1 1).twl.paired = false ∧ get (watching 1 1) (UPD.ILVL_LST 0) ≠ 5 ∧ get (twinIn 1 1) (UPD.ILVL_LST 0) ≠ 5 ∧
    role (put (twinIn 1 1) (UPD.ILVL_LST 0) 5) = rPAIRING ∧
    anyPresent (senseVolts (watching 1 1) [(0, 2500)]) = true ∧ anyPresent (senseVolts (watching 1 1) [(0, 2499)]) = false ∧ role (watching 1 1) = rPAIRING ∧ get (twinIn 1 1) SEC.OGEN_GEN = 0 ∧
    get (twinIn 1 1) OPT.OSHR_SHR = 0 ∧ (twinIn 1 1).twl.pairFail = false ∧ pstate (twinIn 1 1) pMTR ≠ stSEALED ∧ pstate (twinIn 1 1) pMTR ≠ stFAULT ∧
    (let s : State := { puts (twinIn 1 1) [(DEV.ORDC_CODE, 2), (hSTATE pMTR, 8)] with mtr := { record := some ⟨[], [1#32], 1⟩ } }
     pcap s pMTR % 2 = 1 ∧ s.mtr.record = some ⟨[], [1#32], 1⟩ ∧ [2#32] ≠ [1#32] ∧ get s MTR.MSTAT_TWMIS = 0) := by
  decide +kernel

/-- R346: both PAIRING: unit B becomes STANDBY; a partner at another position is not paired. -/
theorem test_paired :
    (nextOf (exec (.paired 37 1 0 true 0 4095 1 ⟨1, false, [], []⟩) (alone 2 1))).map role = some rSTANDBY ∧
    (nextOf (exec (.paired 38 2 0 true 0 4095 1 ⟨1, false, [], []⟩) (alone 1 1))).map (fun t => (role t, evt t pTWL 16)) = some (rPAIRING, true) := by
  decide +kernel

/-- Unit `u` active with bank 0 driving its first quad. -/
def driving (u : Nat) : State :=
  puts (twinIn u 2) [(hSTATE pEXC, 3), (hSTATE 0x10, 3), (BNK.QCFG_QM 0 0, 1), (BNK.QSTAT_ON 0 0, 1), (BNK.QSTAT_ILIM 0 0, 1)]

/-- R339: the detector's thresholds, and excitation that is absent for longer than HBGAP. -/
theorem test_detector :
    (let s : State := put (watching 2 3) (BNK.QMEAS_VSNS 0 0) 2500
     [anyPresent s, anyPresent (put s (BNK.QMEAS_VSNS 0 0) 2499), anyPresent (put s (BNK.QCFG_QM 0 0) 2),
      anyPresent (puts s [(BNK.QCFG_QM 0 0, 2), (BNK.QMEAS_VSNS 0 0, 9)]), exciteSeen { s with twl := { s.twl with gap := 245760 } },
      exciteSeen { s with twl := { s.twl with gap := 245761 } }]) = [true, false, true, false, true, false] := by
  decide +kernel

/-- Witnesses for HeartbeatAndTakeover. -/
theorem test_witness_heartbeat :
    twin (twinIn 2 3) = true ∧ linkRuns (twinIn 2 3) 2 = true ∧ twinUp (twinIn 2 3) = true ∧ role (twinIn 2 6) = rISOLATED ∧
    ({ twinIn 2 3 with twl := { silent := false, pairFail := true } } : State).twl.silent = false ∧
    failClass (put (twinIn 2 3) (hSTATE pLIN) 7) 3 = true ∧ (twinIn 2 3).twl.silent = false ∧
    ({ twinIn 2 3 with twl := { rx := [⟨0, 2, false, 1, 0, 0, [], [], true⟩], silent := false } } : State).twl.rx ≠ [] ∧
    flag (twinIn 2 3) TWL.TROLE_PAUSE = false ∧ twinSilent (twinIn 2 3) = false ∧ (twinIn 2 3).twl.failRx = none ∧ anyPresent (twinIn 2 3) = false ∧
    flag (put (twinIn 2 3) TWL.TROLE_PAUSE 1) TWL.TROLE_PAUSE = true ∧
    (let s : State := { watching 2 3 with twl := { strap := 2, silent := true } }
     twinSilent s = true ∧ ownFail s = none ∧ anyPresent s = false ∧ allHeartDrive s = false ∧ flag s TWL.TROLE_PAUSE = false ∧
     allHeartDrive (put s (BNK.QCFG_QM 0 0) 0) = true ∧ anyPresent (put s (BNK.QCFG_QM 0 0) 0) = false) ∧
    heartbeat (driving 1) 0 = true ∧ get (driving 2) (BNK.QCFG_QM 0 0) ≠ 0 ∧ flag (driving 1) (BNK.QSTAT_ON 0 0) = true ∧
    flag (driving 2) (BNK.QSTAT_ILIM 0 0) = true ∧ (driving 2).twl.strap = 2 ∧ (driving 1).twl.strap ≠ 2 := by
  decide +kernel

/-- R342, R343: with a configured heartbeat quad a silent link gives role TAKEOVER; the quads wait for their blanking window. -/
theorem test_takeover :
    (nextOf (exec .takeover { watching 2 3 with twl := { strap := 2, silent := true } })).map
      (fun t => (role t, get t TWL.NTKO_N, evt t pTWL 10)) = some (rTAKEOVER, 1, true) := by
  decide +kernel

/-- A checkpoint of one frame that reaches generation `g` with bursts `bs`. -/
def oneFrame (g : Nat) (bs : List CkBurst) (good : Bool) : CkFrame := ⟨0, 1, false, 5, 0, g, [⟨1, 3, 9, 4, 1000⟩], bs, good⟩

/-- Witnesses for SummariesAndCheckpoints. -/
theorem test_witness_checkpoints :
    twin (twinIn 1 2) = true ∧ twinUp (twinIn 1 2) = true ∧ (link (twinIn 1 2) 2).own = [] ∧ 790 ≤ negMax (twinIn 1 2) 2 ∧
    ownFail (put (twinIn 1 6) (hSTATE pSTM) 7) = some 4 ∧ (twinIn 1 3).twl.peerSum = none ∧ (twinIn 1 3).twl.ownSum = none ∧
    ckptLive (twinIn 1 2) = false ∧ (twinIn 1 2).twl.backlog = [] ∧ (twinIn 1 2).twl.fullDue = false ∧
    get (twinIn 1 3) TWL.AGREE_CODES < ((10000 : Int) - 0).natAbs ∧ freshCfg (twinIn 1 3) 7 0 = false ∧
    (twinIn 1 3).twl.lastCmp = none ∧ ckWhole [oneFrame 0 [] true] = true ∧ ckWhole [oneFrame 1 [] true] = true ∧
    (oneFrame 0 [] true).fidx = (twinIn 1 3).twl.rx.length ∧
    (let f : CkFrame := ⟨0, 2, false, 6, 0, 0, [], [], true⟩
     f.good = true ∧ f.fidx = 0 ∧ f.nfr ≠ 1) ∧ ({ twinIn 1 3 with twl := { (twinIn 1 3).twl with rx := [oneFrame 1 [] true] } } : State).twl.rx ≠ [] ∧ newerBy 32 1 (get (twinIn 1 3) TWL.CGEN_N) = true := by
  decide +kernel

/-- R337: a burst to AGREE with generation 1 is applied, and generation 2 without its bursts is not. -/
theorem test_checkpoint :
    (nextOf (exec (.checkpointFrame (oneFrame 1 [⟨pTWL, 0x58, [7#32]⟩] true)) (twinIn 2 3))).map
      (fun t => (get t TWL.AGREE_CODES, get t TWL.CGEN_N, get t TWL.CKN_N)) = some (7, 1, 5) ∧
    (nextOf (exec (.checkpointFrame (oneFrame 2 [⟨pTWL, 0x58, [7#32]⟩] true)) (twinIn 2 3))).map
      (fun t => (get t TWL.AGREE_CODES, get t TWL.CGEN_N, evt t pTWL 13)) = some (0x1000, 0, true) := by
  decide +kernel

/-- A hub with an open OWNER session 0 on the service port, attached, which holds the update buffer. -/
def attached : State :=
  let s := puts pwr [(hSTATE pSVC, 3), (SVC.SVST_VBUS, 1), (UPD.USTAT_HELD, 1), (UPD.USTAT_STAGE, 1)]
  setSession s 0 (some { role := .owner, path := .svc })

/-- Witnesses for SessionsOpenAndClose. -/
theorem test_witness_sessions :
    8 ≤ (sessionIds ((List.range 8).foldl (fun s i => setSession s i (some { role := .owner, path := .svc })) pwr)).length ∧
    (sessionIds attached).length < 8 ∧ mgpRuns attached = true ∧ mgpRuns (put pwr (MGT.PRST_ST 0) 0) = false ∧ get pwr (UPD.ILVL_LST 0) ≠ 5 ∧ session attached 1 = none ∧ session attached 0 ≠ none ∧
    flag attached SEC.OSTAT_OWNED = false ∧ flag (put attached SEC.OSTAT_OWNED 1) SEC.OSTAT_OWNED = true ∧
    (let c : Cert := ⟨.operator, 0, 100, true, []⟩
     c.good = true ∧ c.serial = 0 ∧ nowNs attached < c.notAfter * 1000000000) ∧
    (session (setSession attached 1 (some { role := .owner, path := .svc, open_ := false })) 1).map (·.open_) = some false ∧
    (session attached 0).map (·.open_) = some true ∧ pstate attached pSVC ≠ stOFF ∧ pstate (put attached (hSTATE pSVC) 0) pSVC = stOFF ∧ flag attached SVC.SVST_VBUS = true := by
  decide +kernel

/-- R372, R377: DETACH ends the session and discards the buffer. -/
theorem test_detach :
    (nextOf (exec .detach attached)).map (fun t => (session t 0, get t UPD.USTAT_HELD, get t UPD.USTAT_STAGE, pstate t pSVC)) = some (none, 0, 0, 1) := by
  decide +kernel

/-- The attached hub with a staged record that begins with word `a`; OWNED, of serial 0. -/
def staging (a : Nat) : State :=
  { puts attached [(SEC.STG 0, a), (SEC.OSTAT_OWNED, 1)] with sec := { anchor := [7#32], chal := some (0, 0) } }

/-- Witnesses for SecurityCommands: the first message of session 0. -/
theorem test_witness_security :
    (∃ e, Taken (put (staging 0x00010000) SEC.OSTAT_OWNED 0) (.session 0 1) pSEC 0x40 [1#32] false e) ∧
    (∃ e, Taken (staging 0x00030000) (.session 0 1) pSEC 0x40 [2#32] true e) ∧
    (∃ e, Taken (put (staging 0x00020000) (SEC.STG 1) 1) (.session 0 1) pSEC 0x40 [3#32] true e) ∧
    (∀ op ∈ [4#32, 5#32, 6#32, 7#32, 9#32], ∃ e, Taken (staging 0) (.session 0 1) pSEC 0x40 [op] false e) ∧
    (∃ e, Taken (staging 0x00050000) (.session 0 1) pSEC 0x40 [8#32] true e) ∧
    (staging 0).sec.anchor ≠ [] ∧ (staging 0).sec.op = none ∧
    ({ staging 0 with sec := { op := some .release } } : State).sec.op = some .release := by
  refine ⟨⟨_, ⟨by decide +kernel, _, rfl, rfl, rfl, rfl, rfl⟩, by decide +kernel⟩,
    ⟨_, ⟨by decide +kernel, _, rfl, rfl, rfl, rfl, rfl⟩, by decide +kernel⟩,
    ⟨_, ⟨by decide +kernel, _, rfl, rfl, rfl, rfl, rfl⟩, by decide +kernel⟩, ?_,
    ⟨_, ⟨by decide +kernel, _, rfl, rfl, rfl, rfl, rfl⟩, by decide +kernel⟩, by decide +kernel⟩
  intro op h
  simp only [List.mem_cons, List.not_mem_nil, or_false] at h
  rcases h with rfl | rfl | rfl | rfl | rfl <;>
    exact ⟨_, ⟨by decide +kernel, _, rfl, rfl, rfl, rfl, rfl⟩, by decide +kernel⟩

/-- R356: RELEASE takes effect at OWNCHG. -/
theorem test_ownchg :
    (nextOf (exec .ownchg { staging 0 with sec := { anchor := [7#32], op := some .release } })).map
      (fun t => (t.sec.anchor, get t SEC.OSTAT_OWNED, evt t pSEC 10)) = some ([], 0, true) := by
  decide +kernel

/-- The attached hub with a staged header of TYPE 2, the buffer at stage `v`, and the loader of LKP in state `l`. -/
def updating (v l : Nat) : State :=
  puts attached [(UPD.USTAT_STAGE, v), (UPD.UWIN_D 0 0, 0xE7010200), (UPD.UWIN_D 2 0, 0x01010000), (UPD.ULEN_N, 92), (UPD.ILVL_LST 2, l),
    (UPD.ILVL_PLV 0, 1), (UPD.ILVL_PLV 1, 1), (UPD.ILVL_PLV 2, 1), (UPD.ILVL_PLV 3, 1), (hSTATE pUPD, 3)]

/-- Witnesses for ProcessorsAndUpdates. -/
theorem test_witness_updates :
    (∃ e, Taken attached (.session 0 1) pMGT 0x40 [wd (2 * 16 + 1)] false e) ∧ loader attached 2 = 0 ∧
    (∃ e, Taken attached (.session 0 1) pUPD 0x40 [1#32, 0#32, wd 300] false e) ∧
    (∃ e, Taken (updating 1 0) (.session 0 1) pUPD 0x40 [2#32] false e) ∧
    (∃ e, Taken (updating 2 0) (.session 0 1) pUPD 0x40 [3#32] false e) ∧ ctType (updating 2 0) = 2 ∧
    (∃ e, Taken (updating 2 0) (.session 0 1) pUPD 0x40 [4#32] false e) ∧
    ({ updating 1 0 with upd := { checking := true } } : State).upd.checking = true ∧ ctFormat (updating 1 0) = true ∧
    levelsOk (updating 1 0) = true ∧ sealPolicy (updating 1 0) = true ∧ ocsNeeded (updating 1 0) = false ∧
    loader (updating 3 2) 2 = 2 ∧ loader (updating 3 3) 2 = 3 ∧ loader (updating 3 4) 2 = 4 ∧ loader (updating 3 1) 2 = 1 ∧
    (updating 3 1).pwr.starting = false ∧ mgpRuns (updating 3 1) = true ∧ bootOk (updating 3 1) 2 ⟨true, ⟨[], [], []⟩⟩ = true ∧
    bootOk (updating 3 1) 2 ⟨false, ⟨[], [], []⟩⟩ = false ∧ regionHeld (updating 3 1) 2 = none ∧ (∀ q < 4, q ≠ 2 → loader (updating 3 1) q ≠ 1) ∧
    loaderUp attached 2 = true ∧ domainOn attached 2 = true ∧
    (let w : List Word := [0xE7010200#32, 5#32, 0x01010000#32]
     let s : State := { updating 3 1 with flash := { (updating 3 1).flash with images := [(2, w)] } }
     regionHeld s 2 = some w ∧ bootOk s 2 ⟨false, ⟨[⟨.maker, signedPart w, part w 68 24⟩], [⟨devKey s, part w 7 24,
       [wd (get s DEV.SERHI_SER), wd (get s DEV.SERLO_SER)], imageInfo, part w 31 10, part w 4 3, part w 0 4, part w 64 0, part w 64 4, []⟩],
       [⟨[], part w 41 12⟩]⟩⟩ = true) := by
  refine ⟨⟨_, ⟨by decide +kernel, _, rfl, rfl, rfl, rfl, rfl⟩, by decide +kernel⟩, by decide +kernel,
    ⟨_, ⟨by decide +kernel, _, rfl, rfl, rfl, rfl, rfl⟩, by decide +kernel⟩,
    ⟨_, ⟨by decide +kernel, _, rfl, rfl, rfl, rfl, rfl⟩, by decide +kernel⟩,
    ⟨_, ⟨by decide +kernel, _, rfl, rfl, rfl, rfl, rfl⟩, by decide +kernel⟩, by decide +kernel,
    ⟨_, ⟨by decide +kernel, _, rfl, rfl, rfl, rfl, rfl⟩, by decide +kernel⟩, by decide +kernel⟩

/-- R378: a container whose signature fails stays unchecked with ERR 2; R380: the second failed read-back waits with ERR 9. -/
theorem test_update :
    (nextOf (exec (.checkDone ⟨[], [], []⟩) { updating 1 0 with upd := { checking := true } })).map
      (fun t => (get t UPD.USTAT_STAGE, get t UPD.USTAT_ERR, evt t pUPD 9)) = some (1, 2, true) ∧
    (nextOf (exec (.readback 2 false) { updating 3 4 with upd := { target := some 2, tries := 2 } })).map
      (fun t => (loader t 2, get t UPD.ULAST_ERR, get t UPD.ULAST_PROC, evt t pUPD 11)) = some (5, 9, 2, true) := by
  decide +kernel

/-- A hub supplied from the west port, pass-through enabled. -/
def supplied : State := puts pwr [(PWR.PORTST_PRES 1, 1), (PWR.PTCFG_EN, 1)]

/-- Witnesses for SupplyAndPorts. -/
theorem test_witness_supply :
    ([4000, 4000, 4000, 4000].sum < 10 * get pwr PWR.SAGL_SAG2 * 4) ∧
    ([4200, 4200, 4200, 4200].sum < 10 * get pwr PWR.SAGL_SAG1 * 4) ∧ ¬ ([4200, 4200, 4200, 4200].sum < 10 * get pwr PWR.SAGL_SAG2 * 4) ∧
    ¬ ([4800, 4800, 4800, 4800].sum < 10 * get pwr PWR.SAGL_SAG1 * 4) ∧ pwr.pwr.lock = false ∧ get pwr PWR.SLVL_LEVEL = 0 ∧
    4 * (10 * get pwr PWR.SAGL_SAG2 + 100) ≤ [4200, 4200, 4200, 4200].sum ∧ get (put pwr PWR.SLVL_LEVEL 1) CLK.XSTAT_XDIV ≠ 1 ∧
    flag supplied (PWR.PORTST_PRES 0) ≠ flag supplied (PWR.PORTST_PRES 1) ∧ get supplied PWR.PTCFG_SRC ≠ 3 - 2 ∧
    flag supplied PWR.PTCFG_EN = true ∧ get supplied PWR.PTST_DIR = 0 ∧ get (put supplied PWR.PTST_DIR 2) PWR.PTST_DIR ≠ 0 := by
  decide +kernel

/-- R390: 25 kΩ closes the switch from west to east, 30 kΩ does not. -/
theorem test_probe :
    (nextOf (exec (.ptProbe 25000) supplied)).map (fun t => get t PWR.PTST_DIR) = some 2 ∧
    (nextOf (exec (.ptProbe 30000) supplied)).map (fun t => get t PWR.PTST_DIR) = some 0 := by
  decide +kernel

/-- Witnesses for ResetsAndDomains. -/
theorem test_witness_resets :
    (∃ k < 24, get (put pwr (SEC.DPUB 7) 5) (SEC.DPUB k) ≠ 0) ∧ (∃ k < 24, get (put pwr (MTR.MPUB 7) 5) (MTR.MPUB k) ≠ 0) ∧
    (pwr.mtr.record = none) ∧ tget pwr.flash.regions 1 true = true ∧ bit (get (put pwr PWR.PDEN_EN 0x7FFE) PWR.PDEN_EN) 0 = false ∧
     pwr.pwr.lock = false ∧ ([3700] : List Nat) ≠ [] ∧ ([3700] : List Nat).sum < 3800 * 1 ∧ twin (twinIn 1 2) = true ∧
    domainOn egress 13 = true ∧ pstate egress pCNV ≠ stOFF ∧ pstate egress pCNV ≠ stSEALED ∧ pstate egress pTKE ≠ stOFF ∧
    bstate (bankIn 0 3) 0 ≠ stOFF ∧ pstate (bankIn 0 3) pEXC ≠ stOFF ∧
    admits pwr .mgp pPWR 0x44 [0x1DFFC#32] false = true ∧ admits pwr .mgp pPWR 0x40 [1#32] false = true ∧
    admits pwr .mgp pPWR 0x40 [2#32] false = true ∧
    (let s := put pwr PWR.PDST_PG 0x1DFFF
     bit (get s PWR.PDEN_EN) (13 - 2) = true ∧ domainOn s 13 = false) ∧
    (let s : State := { puts (sched 1) [(TSU.TSTAT_SRC, 3), (DOM.DROLE_AUTH, 1)] with sch := { rearm := true }, tsu := { stepDone := true } }
     s.sch.rearm = true ∧ pstate s pSCH = stIDLE ∧ get s TSU.TSTAT_SRC ≠ 0 ∧ commitErrs s true = [] ∧ commitState s = false) := by
  decide +kernel

/-- R396: clearing PDEN bit 13 switches PD_CNV off and nothing else. -/
theorem test_pden :
    (nextOf (exec (.pdenWrite .mgp 0x1DFFC#32) pwr)).map (fun t => (get t PWR.PDST_PG, get t PWR.PDEN_EN)) = some (0x1DFFF, 0x77FF) := by
  decide +kernel

end Sys2Proof.Tests
end

section
/-! The reported one of several reasons (R41). -/

namespace Sys2Proof.Machine

/-! ### The reported reason (R41) -/

/-- R41's order of two reasons: the first stands higher in the table, or both are the same and no word of the second lies lower. -/
def Outranks (v u : Viol) : Prop := v.1.prec < u.1.prec ∨ (v.1 = u.1 ∧ v.2 ≤ u.2)

theorem Reason.prec_injective : Function.Injective Reason.prec := by
  intro a b h
  cases a <;> cases b <;> simp [Reason.prec] at h ⊢

theorem outranks_refl (v : Viol) : Outranks v v := .inr ⟨rfl, Nat.le_refl _⟩

theorem Outranks.trans {v u w : Viol} (h1 : Outranks v u) (h2 : Outranks u w) : Outranks v w := by
  rcases h1 with h1 | ⟨e1, h1⟩
  · rcases h2 with h2 | ⟨e2, -⟩
    · exact .inl (h1.trans h2)
    · exact .inl (e2 ▸ h1)
  · rcases h2 with h2 | ⟨e2, h2⟩
    · exact .inl (e1 ▸ h2)
    · exact .inr ⟨e1.trans e2, h1.trans h2⟩

/-- The choice `worst` makes between two reasons is R41's order, and the order is total. -/
theorem outranks_of_swap {v u : Viol} (h : u.1.prec < v.1.prec ∨ (u.1.prec = v.1.prec ∧ u.2 < v.2)) : Outranks u v :=
  h.imp_right fun ⟨e, l⟩ => ⟨Reason.prec_injective e, l.le⟩

theorem outranks_of_not_swap {v u : Viol} (h : ¬ (u.1.prec < v.1.prec ∨ (u.1.prec = v.1.prec ∧ u.2 < v.2))) : Outranks v u := by
  by_cases e : v.1.prec = u.1.prec
  · exact .inr ⟨Reason.prec_injective e, by omega⟩
  · exact .inl (by omega)

theorem worst_cons_eq_some (a : Viol) (l : List Viol) : ∃ v, worst (a :: l) = some v := by
  rw [worst]
  split
  · exact ⟨_, rfl⟩
  · split <;> exact ⟨_, rfl⟩

theorem worst_eq_none {l : List Viol} : worst l = none ↔ l = [] := by
  cases l with
  | nil => exact iff_of_true rfl rfl
  | cons a l =>
    obtain ⟨v, h⟩ := worst_cons_eq_some a l
    simp [h]

/-- The reported reason is one of those that hold, and outranks every one of them. -/
theorem worst_spec {l : List Viol} {v : Viol} (h : worst l = some v) : v ∈ l ∧ ∀ u ∈ l, Outranks v u := by
  induction l generalizing v with
  | nil => exact absurd h (by simp [worst])
  | cons a l ih =>
    rw [worst] at h
    split at h
    next hl =>
      obtain rfl := worst_eq_none.1 hl
      obtain rfl := Option.some.inj h
      exact ⟨List.mem_singleton_self _, fun u hu => List.mem_singleton.1 hu ▸ outranks_refl _⟩
    next w hw =>
      obtain ⟨hmem, hall⟩ := ih hw
      split at h
      next hswap =>
        obtain rfl := Option.some.inj h
        exact ⟨List.mem_cons_of_mem _ hmem, List.forall_mem_cons.2 ⟨outranks_of_swap hswap, hall⟩⟩
      next hswap =>
        obtain rfl := Option.some.inj h
        have ha := outranks_of_not_swap hswap
        exact ⟨List.mem_cons_self, List.forall_mem_cons.2 ⟨outranks_refl _, fun u hu => ha.trans (hall u hu)⟩⟩

/-- AUTH stands at the top of the table: where it holds, it is reported. -/
theorem worst_of_auth_mem {l : List Viol} {o : Nat} (h : (.auth, o) ∈ l) : ∃ o', worst l = some (.auth, o') := by
  cases hw : worst l with
  | none => simp [worst_eq_none.1 hw] at h
  | some v =>
    obtain ⟨r, o'⟩ := v
    have hv := (worst_spec hw).2 _ h
    have hr : r = .auth := by
      rcases hv with hlt | ⟨e, -⟩
      · cases r <;> simp [Reason.prec] at hlt
      · exact e
    exact ⟨o', by rw [hr]⟩

end Sys2Proof.Machine

namespace Sys2Proof

/-- Settles O6: by induction over the list, the choice between two reasons being R41's total order. -/
theorem reportedReasonIsTheHighest : Obligations.ReportedReasonIsTheHighest :=
  ⟨fun _ => ⟨Machine.worst_eq_none, fun _ h => Machine.worst_spec h⟩, rfl, rfl⟩

end Sys2Proof

end

section
/-! SUPPORT. Frames: what writing a register, raising an event and sending on a link leave alone. -/

namespace Sys2Proof.Machine

/-! ### Frames of the register window -/

theorem sameRegs_refl (s : State) (fs : List Fld) : sameRegs s s fs := fun _ _ => rfl

theorem sameRegs.trans {s t u : State} {fs gs : List Fld} (h1 : sameRegs s t fs) (h2 : sameRegs t u gs) : sameRegs s u (fs ++ gs) :=
  fun f hf => (h2 f fun g hg => hf g (List.mem_append_right _ hg)).trans (h1 f fun g hg => hf g (List.mem_append_left _ hg))

theorem sameRegs.mono {s t : State} {fs gs : List Fld} (h : sameRegs s t fs) (hs : fs ⊆ gs) : sameRegs s t gs :=
  fun f hf => h f fun g hg => hf g (hs hg)

theorem sameRegs_put (s : State) (f : Fld) (v : Nat) : sameRegs s (put s f v) [f] :=
  fun _ h => get_put_ne s v (h f (List.mem_singleton_self f))

theorem sameRegs_puts (s : State) (l : List (Fld × Nat)) : sameRegs s (puts s l) (l.map Prod.fst) := by
  induction l generalizing s with
  | nil => exact sameRegs_refl s _
  | cons e l ih => exact (sameRegs_put s e.1 e.2).trans (ih _)

/-- Each of several fields with keys of their own reads as it was written. -/
theorem get_puts_of_mem {s : State} {l : List (Fld × Nat)} {f : Fld} {v : Nat} (hd : (l.map fun e => e.1.code).Nodup) (h : (f, v) ∈ l) :
    get (puts s l) f = v % 2 ^ f.width := by
  induction l generalizing s with
  | nil => simp at h
  | cons e l ih =>
    rw [List.map_cons, List.nodup_cons] at hd
    rcases List.mem_cons.1 h with rfl | h
    · have hne : ∀ g ∈ l.map Prod.fst, f.code ≠ g.code := by
        intro g hg hc
        obtain ⟨e, he, rfl⟩ := List.mem_map.1 hg
        exact hd.1 (List.mem_map.2 ⟨e, he, hc.symm⟩)
      exact (sameRegs_puts _ l f hne).trans (get_put_same s f v)
    · exact ih hd.2 h

/-! ### What an event touches (R35, R354) -/

theorem sameRegs_raiseAs (s : State) (src page i : Nat) : sameRegs s (raiseAs src s page i) (evts page) :=
  fun _ h => get_raiseAs s (h _ (by simp)) (h _ (by simp))

theorem sameRegs_logEv (s : State) (page code src : Nat) : sameRegs s (logEv s page code src) [hPEVT pMGT] :=
  fun _ h => get_logEv s (h _ (by simp))

@[simp] theorem unlogged_put (s : State) (f : Fld) (v : Nat) : unlogged (put s f v) = unlogged s := rfl

@[simp] theorem unlogged_puts (s : State) (l : List (Fld × Nat)) : unlogged (puts s l) = unlogged s := by
  induction l generalizing s with
  | nil => rfl
  | cons e l ih => exact ih _

@[simp] theorem unlogged_logPush (s : State) (page code src : Nat) (data : List Int) :
    unlogged (logPush s page code src data) = unlogged s := rfl

@[simp] theorem unlogged_logAgain (s : State) : unlogged (logAgain s) = unlogged s := by
  rw [logAgain]
  split <;> rfl

/-- A session without its due notices. -/
def undue (x : Session) : Session := { x with due := [] }

theorem undue_ite (c : Prop) [Decidable c] (x : Session) (l : List Nat) : undue (if c then { x with due := l } else x) = undue x := by
  split <;> rfl

theorem sessions_unlogged (s : State) : (unlogged s).sessions = s.sessions.map fun e => (e.1, e.2.map undue) := rfl

@[simp] theorem unlogged_noticeDue (s : State) (page : Nat) : unlogged (noticeDue s page) = unlogged s := by
  have h : (unlogged (noticeDue s page)).sessions = (unlogged s).sessions := by
    simp [sessions_unlogged, noticeDue, Function.comp_def, undue_ite]
  exact congrArg (fun l => { unlogged s with sessions := l }) h

@[simp] theorem unlogged_logWith (s : State) (data : List Int) (page code src : Nat) :
    unlogged (logWith data s page code src) = unlogged s := by
  rw [logWith]
  split
  · simp
  · dsimp only
    split
    · simp
    · split <;> simp [putBit]

@[simp] theorem unlogged_logEv (s : State) (page code src : Nat) : unlogged (logEv s page code src) = unlogged s := unlogged_logWith ..

@[simp] theorem unlogged_raiseAs (s : State) (src page i : Nat) : unlogged (raiseAs src s page i) = unlogged s := by
  rw [raiseAs]
  split
  · rfl
  · dsimp only
    split <;> simp [putBit]

/-! ### Sessions under an event -/

theorem tget_map {V W : Type} (f : V → W) (t : List (Nat × V)) (k : Nat) (d : V) :
    tget (t.map fun e => (e.1, f e.2)) k (f d) = f (tget t k d) := by
  induction t with
  | nil => rfl
  | cons e t ih => simp only [List.map_cons, tget, ih, apply_ite f]

theorem session_unlogged (s : State) (sid : Nat) : session (unlogged s) sid = (session s sid).map undue :=
  tget_map (Option.map undue) s.sessions sid none

theorem isSome_session_of_sessions {s t : State} (h : (unlogged t).sessions = (unlogged s).sessions) (sid : Nat) :
    (session t sid).isSome = (session s sid).isSome := by
  have hs : session (unlogged t) sid = session (unlogged s) sid := by rw [session, session, h]
  simpa [session_unlogged] using congrArg Option.isSome hs

theorem overZlp_unlogged (s : State) (src : Src) : overZlp (unlogged s) src = overZlp s src := by
  cases src with
  | session sid tseq => rw [overZlp, overZlp, session_unlogged, Option.any_map]; rfl
  | mgp => rfl
  | forged sid => rfl
  | token sid tseq => rfl

theorem inside_of_unlogged {s t : State} (h : unlogged t = unlogged s) : inside t = inside s := by rw [inside, inside, h]

theorem links_of_unlogged {s t : State} (h : unlogged t = unlogged s) : t.links = s.links := by
  have hl := congrArg State.links h
  exact hl

theorem overZlp_of_unlogged {s t : State} (h : unlogged t = unlogged s) (src : Src) : overZlp t src = overZlp s src := by
  rw [← overZlp_unlogged t, h, overZlp_unlogged]

/-! ### What sending on a link touches (R292) -/

/-- Nothing has changed but links, what left the hub, and the trunk ports' counters of codewords sent again. -/
structure OnLinks (s t : State) : Prop where
  regs : sameRegs s t [TK.NREPL_N 0, TK.NREPL_N 1]
  rest : offWire t = offWire s

theorem OnLinks.refl (s : State) : OnLinks s s := ⟨sameRegs_refl s _, rfl⟩

theorem OnLinks.trans {s t u : State} (h1 : OnLinks s t) (h2 : OnLinks t u) : OnLinks s u :=
  ⟨(h1.regs.trans h2.regs).mono (by simp), h2.rest.trans h1.rest⟩

theorem OnLinks.foldl {A : Type} {f : State → A → State} (hf : ∀ s a, OnLinks s (f s a)) (l : List A) (s : State) :
    OnLinks s (l.foldl f s) := by
  induction l generalizing s with
  | nil => exact .refl s
  | cons a l ih => exact (hf s a).trans (ih _)

theorem onLinks_emit (s : State) (o : Out) : OnLinks s (emit s o) := ⟨sameRegs_refl s _, rfl⟩

theorem onLinks_setLink (s : State) (l : Nat) (x : Link) : OnLinks s (setLink s l x) := ⟨sameRegs_refl s _, rfl⟩

theorem onLinks_bumpL (s : State) (l : Nat) : OnLinks s (bumpL s l TK.NREPL_N) := by
  rw [bumpL]
  split
  next hl =>
    refine ⟨(sameRegs_put s _ _).mono ?_, rfl⟩
    obtain rfl | rfl : l = 0 ∨ l = 1 := by omega
    · simp
    · simp
  next => exact .refl s

theorem onLinks_emitCw (s : State) (l lane csn : Nat) (ws : List Word) : OnLinks s (emitCw s l lane csn ws) :=
  (onLinks_setLink ..).trans (onLinks_emit ..)

theorem onLinks_queueTime (s : State) (l dir ref t : Nat) : OnLinks s (queueTime s l dir ref t) :=
  (onLinks_setLink ..).trans (.foldl (fun _ _ => onLinks_emit ..) _ _)

theorem onLinks_sendCw (s : State) (l : Nat) (ws : List Word) : OnLinks s (sendCw s l ws) := by
  rw [sendCw]
  have h (x : Link) (lane csn : Nat) : OnLinks s (emitCw (setLink s l x) l lane csn ws) := (onLinks_setLink ..).trans (onLinks_emitCw ..)
  split
  · exact (h _ _ _).trans ((onLinks_setLink ..).trans (onLinks_queueTime ..))
  · exact h _ _ _

theorem onLinks_resendOn (s : State) (l : Nat) (cs : List SentCw) : OnLinks s (resendOn s l cs) := by
  rw [resendOn]
  split
  · exact .refl s
  · exact .foldl (fun _ _ => ((onLinks_setLink ..).trans (onLinks_bumpL ..)).trans (onLinks_emitCw ..)) cs s

theorem onLinks_resendAtLimit (s : State) (l : Nat) : OnLinks s (resendAtLimit s l) :=
  (onLinks_setLink ..).trans (onLinks_resendOn ..)

theorem onLinks_dealHeld (n : Nat) (s : State) (l : Nat) : OnLinks s (dealHeld n s l) := by
  induction n generalizing s with
  | zero => exact .refl s
  | succ n ih =>
    rw [dealHeld]
    split
    · exact .refl s
    · split
      · exact .refl s
      · split
        · exact ((onLinks_setLink ..).trans (onLinks_sendCw ..)).trans (ih _)
        · exact onLinks_resendAtLimit ..

theorem onLinks_flushLink (s : State) (l : Nat) : OnLinks s (flushLink s l) := by
  rw [flushLink]
  split
  · exact (onLinks_setLink ..).trans (onLinks_dealHeld ..)
  · exact .refl s

theorem onLinks_wake (s : State) (l : Nat) : OnLinks s (wake s l) := by
  rw [wake]
  split
  · exact (onLinks_setLink ..).trans (.foldl (fun _ _ => onLinks_emit ..) _ _)
  · exact .refl s

theorem onLinks_startOwn (s : State) (l fk : Nat) (ws : List Word) : OnLinks s (startOwn s l fk ws) :=
  (onLinks_setLink ..).trans ((onLinks_setLink ..).trans ((onLinks_flushLink ..).trans (onLinks_wake ..)))

theorem onLinks_sendFrame (s : State) (l fk : Nat) (ws : List Word) : OnLinks s (sendFrame s l fk ws) := by
  rw [sendFrame]
  split
  · exact .refl s
  · split
    · exact (onLinks_emit ..).trans (onLinks_startOwn ..)
    · exact onLinks_setLink ..

/-! ### Replies (R360, R386) -/

/-- The counters that a reply moves. -/
abbrev replyFlds : List Fld := [SVC.SVTX_N, TK.NREPL_N 0, TK.NREPL_N 1]

theorem sameRegs_countTx (s : State) (p : Path) : sameRegs s (countTx s p) [SVC.SVTX_N] := by
  rw [countTx]
  split
  · exact sameRegs_put s _ _
  · exact sameRegs_refl s _

theorem offWire_countTx (s : State) (p : Path) : offWire (countTx s p) = offWire s := by
  rw [countTx]
  split <;> rfl

/-- A session message is counted, and over ZLP leaves in a frame. -/
theorem carry_cases (s : State) (p : Path) (ws : List Word) :
    carry s p ws = countTx s p ∨ ∃ l f, carry s p ws = sendFrame (countTx s p) l 1 f := by
  unfold carry
  dsimp only
  split
  · exact .inr ⟨_, _, rfl⟩
  · exact .inl rfl

theorem sameRegs_carry (s : State) (p : Path) (ws : List Word) : sameRegs s (carry s p ws) replyFlds := by
  rcases carry_cases s p ws with h | ⟨l, f, h⟩
  · exact h ▸ (sameRegs_countTx s p).mono (by simp)
  · exact h ▸ (sameRegs_countTx s p).trans (onLinks_sendFrame ..).regs

theorem offWire_carry (s : State) (p : Path) (ws : List Word) : offWire (carry s p ws) = offWire s := by
  rcases carry_cases s p ws with h | ⟨l, f, h⟩
  · exact h ▸ offWire_countTx ..
  · exact h ▸ (onLinks_sendFrame ..).rest.trans (offWire_countTx ..)

theorem links_carry (s : State) {p : Path} (ws : List Word) (h : p ≠ .zlp) : (carry s p ws).links = s.links := by
  cases p with
  | zlp => exact absurd rfl h
  | eth => rfl
  | svc => rfl

end Sys2Proof.Machine
end

section
/-! SUPPORT. The record of a rejection (R33, R42), and a message's way from its arrival through its execution to its reply (R360, R361). -/

namespace Sys2Proof.Machine

/-! ### What a record of a rejection writes (R33, R42) -/

/-- The event REJ of a recorded access (R42, R354): raised, and logged once more where it stood already. -/
def raiseRej (k : Nat) (again : Bool) (s : State) (page : Nat) : State :=
  if again then logEv (raiseAs k s page 0) page 0 k else raiseAs k s page 0

theorem sameRegs_raiseRej (k : Nat) (again : Bool) (s : State) (page : Nat) : sameRegs s (raiseRej k again s page) (evts page) := by
  rw [raiseRej]
  split
  · exact ((sameRegs_raiseAs s k page 0).trans (sameRegs_logEv _ page 0 k)).mono (by simp)
  · exact sameRegs_raiseAs s k page 0

theorem evt_raiseRej (k : Nat) (again : Bool) (s : State) (page : Nat) : evt (raiseRej k again s page) page 0 = true := by
  have h := bit_raiseAs s (src := k) (page := page) (i := 0) (by decide)
  rw [raiseRej]
  split
  · exact bit_logEv _ page (by decide) h
  · exact h

@[simp] theorem unlogged_raiseRej (k : Nat) (again : Bool) (s : State) (page : Nat) : unlogged (raiseRej k again s page) = unlogged s := by
  rw [raiseRej]
  split <;> simp

theorem Reason.code_lt (r : Reason) : r.code < 256 := by cases r <;> decide

/-- What a rejection writes into its page (R42). -/
def rejRegs (s : State) (src : Src) (page : Nat) (v : Viol) : List (Fld × Nat) :=
  [(hREASON page, v.1.code), (hSRC page, srcCode src), (hOFFSET page, v.2), (hREJCNT page, min (get s (hREJCNT page) + 1) 65535)]

/-- What an access that no page can record writes into page DEV (R33). -/
def xrejRegs (s : State) (src : Src) (page code : Nat) : List (Fld × Nat) :=
  [(DEV.XREJ_REASON, code), (DEV.XREJ_SRC, srcCode src), (DEV.XREJ_PAGE, page),
    (DEV.XREJCNT_COUNT, min (get s DEV.XREJCNT_COUNT + 1) 65535)]

theorem rejRegs_nodup (s : State) (src : Src) (page : Nat) (v : Viol) : ((rejRegs s src page v).map fun e => e.1.code).Nodup := by
  simp [rejRegs, hREASON, hSRC, hOFFSET, hREJCNT, Fld.code]
  omega

theorem xrejRegs_nodup (s : State) (src : Src) (page code : Nat) : ((xrejRegs s src page code).map fun e => e.1.code).Nodup :=
  show [DEV.XREJ_REASON.code, DEV.XREJ_SRC.code, DEV.XREJ_PAGE.code, DEV.XREJCNT_COUNT.code].Nodup by decide

theorem recordRej_eq (s : State) (src : Src) (page : Nat) (v : Viol) :
    recordRej s page src v.1 v.2 =
      raiseRej (srcCode src) (decide (v.1 = .auth ∧ bit (get s (hPEVT page)) 0)) (puts s (rejRegs s src page v)) page := by
  have h : get (puts s [(hREASON page, v.1.code), (hSRC page, srcCode src), (hOFFSET page, v.2)]) (hREJCNT page) = get s (hREJCNT page) :=
    sameRegs_puts s _ _ (by simp [hREASON, hSRC, hOFFSET, hREJCNT, Fld.code]; omega)
  simp only [recordRej, raiseRej, bumpSat_eq, h, decide_eq_true_eq]
  rfl

theorem recordX_eq (s : State) (src : Src) (page code : Nat) (rej : Bool) :
    recordX s page src code rej =
      if rej then
        raiseRej (srcCode src) (decide (code = Reason.auth.code ∧ bit (get s (hPEVT pDEV)) 0)) (puts s (xrejRegs s src page code)) pDEV
      else puts s (xrejRegs s src page code) := by
  have h : get (puts s [(DEV.XREJ_REASON, code), (DEV.XREJ_SRC, srcCode src), (DEV.XREJ_PAGE, page)]) DEV.XREJCNT_COUNT =
      get s DEV.XREJCNT_COUNT := sameRegs_puts s _ _ (show ∀ g ∈ [DEV.XREJ_REASON, DEV.XREJ_SRC, DEV.XREJ_PAGE], _ by decide)
  simp only [recordX, raiseRej, bumpSat_eq, h, decide_eq_true_eq]
  rfl

theorem sameRegs_recordRej (s : State) (src : Src) (page : Nat) (v : Viol) :
    sameRegs s (recordRej s page src v.1 v.2) (hREASON page :: hSRC page :: hOFFSET page :: hREJCNT page :: evts page) :=
  recordRej_eq s src page v ▸ (sameRegs_puts s (rejRegs s src page v)).trans (sameRegs_raiseRej _ _ _ _)

theorem sameRegs_recordX (s : State) (src : Src) (page code : Nat) (rej : Bool) :
    sameRegs s (recordX s page src code rej)
      (DEV.XREJ_REASON :: DEV.XREJ_SRC :: DEV.XREJ_PAGE :: DEV.XREJCNT_COUNT :: if rej then evts pDEV else []) := by
  have h := sameRegs_puts s (xrejRegs s src page code)
  rw [recordX_eq]
  cases rej with
  | false => exact h
  | true => exact h.trans (sameRegs_raiseRej _ _ _ _)

@[simp] theorem unlogged_recordRej (s : State) (src : Src) (page : Nat) (v : Viol) :
    unlogged (recordRej s page src v.1 v.2) = unlogged s := by
  simp [recordRej_eq]

@[simp] theorem unlogged_recordX (s : State) (src : Src) (page code : Nat) (rej : Bool) :
    unlogged (recordX s page src code rej) = unlogged s := by
  rw [recordX_eq]
  split <;> simp

/-- What a rejection writes stands in its page. -/
theorem get_recordRej {s : State} {src : Src} {page : Nat} {v : Viol} {f : Fld} {x : Nat} (h : (f, x) ∈ rejRegs s src page v) :
    get (recordRej s page src v.1 v.2) f = x % 2 ^ f.width := by
  have hne : ∀ g ∈ evts page, f.code ≠ g.code := by
    have hall : ∀ f ∈ [hREASON page, hSRC page, hOFFSET page, hREJCNT page], ∀ g ∈ evts page, f.code ≠ g.code := by
      simp only [List.mem_cons, List.not_mem_nil, or_false, forall_eq_or_imp, forall_eq, Fld.code, hREASON, hSRC, hOFFSET, hREJCNT, hPEVT]
      omega
    exact hall f (List.mem_map_of_mem (f := Prod.fst) h)
  rw [recordRej_eq, sameRegs_raiseRej _ _ _ _ f hne, get_puts_of_mem (rejRegs_nodup ..) h]

/-- What an unrecordable access writes stands in page DEV. -/
theorem get_recordX {s : State} {src : Src} {page code : Nat} (rej : Bool) {f : Fld} {x : Nat} (h : (f, x) ∈ xrejRegs s src page code) :
    get (recordX s page src code rej) f = x % 2 ^ f.width := by
  have hne : ∀ g ∈ evts pDEV, f.code ≠ g.code := by
    have hall : ∀ f ∈ [DEV.XREJ_REASON, DEV.XREJ_SRC, DEV.XREJ_PAGE, DEV.XREJCNT_COUNT], ∀ g ∈ evts pDEV, f.code ≠ g.code := by decide
    exact hall f (List.mem_map_of_mem (f := Prod.fst) h)
  have hp := get_puts_of_mem (s := s) (xrejRegs_nodup ..) h
  rw [recordX_eq]
  cases rej with
  | false => exact hp
  | true => exact (sameRegs_raiseRej _ _ _ _ f hne).trans hp

theorem evt_recordRej (s : State) (src : Src) (page : Nat) (v : Viol) : evt (recordRej s page src v.1 v.2) page 0 = true :=
  recordRej_eq s src page v ▸ evt_raiseRej ..

theorem evt_recordX (s : State) (src : Src) (page code : Nat) : evt (recordX s page src code true) pDEV 0 = true :=
  recordX_eq s src page code true ▸ evt_raiseRej ..

/-! ### A message that comes in its turn (R361) -/

/-- What follows the execution of a message: in a session, its reply is kept and sent, unless the message has ended the session. -/
def closeOut (src : Src) (m : WinMsg) (r : Reply × State) : State :=
  match src with
  | .session sid tseq =>
    match session r.2 sid with
    | none => r.2
    | some x =>
      let a : Reply := { r.1 with t1 := msgParam m }
      answer (setSession r.2 sid (some { x with cache := ((tseq, a) :: x.cache).take 64, next := tseq + 1 })) sid tseq a
  | _ => r.2

theorem sameRegs_arrived (s : State) (sid : Nat) (x : Session) : sameRegs s (arrived s sid x) [SVC.SVRX_N] := by
  rw [arrived, countRx]
  split
  · exact sameRegs_put (setSession s sid _) _ _
  · exact sameRegs_refl s _

theorem session_arrived (s : State) (sid : Nat) (x : Session) : session (arrived s sid x) sid = some { x with last := s.cyc } := by
  rw [arrived, countRx]
  split <;> simp [bumpMod_eq]

theorem sameRegs_of_comes {s e : State} {src : Src} (h : Comes s src e) : sameRegs s e [SVC.SVRX_N] := by
  obtain ⟨-, h⟩ := h
  cases src with
  | mgp => exact h ▸ sameRegs_refl s _
  | session sid tseq =>
    obtain ⟨x, -, -, -, -, rfl⟩ := h
    exact sameRegs_arrived s sid x
  | forged sid => exact h.elim
  | token sid tseq => exact h.elim

/-- A message's arrival leaves everything alone but its session and a counter. -/
theorem untouched_of_comes {s e : State} {src : Src} (h : Comes s src e) :
    inside e = inside s ∧ e.links = s.links ∧ overZlp e src = overZlp s src := by
  obtain ⟨-, h⟩ := h
  cases src with
  | mgp => exact h ▸ ⟨rfl, rfl, rfl⟩
  | session sid tseq =>
    obtain ⟨x, hx, -, -, -, rfl⟩ := h
    refine ⟨?_, ?_, by simp [overZlp, session_arrived, hx]⟩ <;>
    · rw [arrived, countRx]
      split <;> rfl
  | forged sid => exact h.elim
  | token sid tseq => exact h.elim

theorem mgpRuns_of_comes {s e : State} {src : Src} (h : Comes s src e) : mgpRuns e = true := by
  have hr : get e (MGT.PRST_ST 0) = get s (MGT.PRST_ST 0) := sameRegs_of_comes h _ (by decide)
  rw [mgpRuns, hr]
  exact h.1

theorem session_of_comes {s e : State} {sid tseq : Nat} (h : Comes s (.session sid tseq) e) : (session e sid).isSome = true := by
  obtain ⟨-, x, -, -, -, -, rfl⟩ := h
  rw [session_arrived]
  rfl

/-- A message that comes in its turn is executed in the state of its arrival, and then answered. -/
theorem deliver_of_comes {s e : State} {src : Src} {m : WinMsg} (h : Comes s src e) (hm : encodable m = true) :
    deliver s src m = closeOut src m (takeMsg e src m) := by
  have hrun := mgpRuns_of_comes h
  obtain ⟨hs, h⟩ := h
  cases src with
  | mgp =>
    obtain rfl := h
    simp [deliver, closeOut, hrun, hm]
  | session sid tseq =>
    obtain ⟨x, hx, hopen, hnext, hheld, rfl⟩ := h
    have hserve : serve (arrived s sid x) (.session sid tseq) m = takeMsg (arrived s sid x) (.session sid tseq) m := by
      simp [serve, loaderServes, hrun]
    have harr : deliver s (.session sid tseq) m = runMsg (arrived s sid x) sid tseq m := by
      simp [deliver, hx, heard, hopen, hs, hm, arrive, hnext, hheld, drainSession, arrived]
    rw [harr, runMsg, hserve]
    rfl
  | forged sid => exact h.elim
  | token sid tseq => exact h.elim

/-! ### The reply (R360) -/

theorem answer_eq {s : State} {sid : Nat} {x : Session} (h : session s sid = some x) (tseq : Nat) (r : Reply) :
    answer s sid tseq r = emit (carry s x.path (sessionWords x sid tseq (replyWords r)))
      (.reply sid tseq r (sessionWords x sid tseq (replyWords r))) := by
  rw [answer, h]

theorem replied_answer {s : State} {sid : Nat} (h : (session s sid).isSome = true) (tseq : Nat) (r : Reply) :
    Replied (answer s sid tseq r) (.session sid tseq) r.status r.data := by
  obtain ⟨x, hx⟩ := Option.isSome_iff_exists.1 h
  exact ⟨r.t1, _, by rw [answer_eq hx, emit]; exact List.getLast?_concat⟩

/-- A session that is still there gets the reply. -/
theorem replied_closeOut {src : Src} {r : Reply × State} (m : WinMsg)
    (h : ∀ sid tseq, src = .session sid tseq → (session r.2 sid).isSome = true) :
    Replied (closeOut src m r) src r.1.status r.1.data := by
  cases src with
  | session sid tseq =>
    obtain ⟨x, hx⟩ := Option.isSome_iff_exists.1 (h sid tseq rfl)
    simp only [closeOut, hx]
    exact replied_answer (by simp) tseq _
  | mgp => trivial
  | forged sid => trivial
  | token sid tseq => trivial

/-- A session that is there after the reply was there before it. -/
theorem isSome_session_of_closeOut {sid tseq : Nat} {m : WinMsg} {r : Reply × State}
    (h : (session (closeOut (.session sid tseq) m r) sid).isSome = true) : (session r.2 sid).isSome = true := by
  cases hx : session r.2 sid with
  | some x => rfl
  | none => simp [closeOut, hx] at h

theorem sameRegs_closeOut (src : Src) (m : WinMsg) (r : Reply × State) : sameRegs r.2 (closeOut src m r) replyFlds := by
  cases src with
  | session sid tseq =>
    cases hx : session r.2 sid with
    | none => simpa only [closeOut, hx] using sameRegs_refl r.2 _
    | some x =>
      simp only [closeOut, hx]
      rw [answer_eq (session_setSession_same ..)]
      exact sameRegs_carry (setSession r.2 sid _) _ _
  | mgp => exact sameRegs_refl r.2 _
  | forged sid => exact sameRegs_refl r.2 _
  | token sid tseq => exact sameRegs_refl r.2 _

theorem untouched_closeOut (src : Src) (m : WinMsg) (r : Reply × State) : Untouched r.2 (closeOut src m r) src := by
  cases src with
  | session sid tseq =>
    cases hx : session r.2 sid with
    | none => simpa only [closeOut, hx] using ⟨rfl, fun _ => rfl⟩
    | some x =>
      simp only [closeOut, hx]
      rw [answer_eq (session_setSession_same ..)]
      refine ⟨?_, fun hz => ?_⟩
      · exact congrArg (fun u : State => { u with sessions := [] }) (offWire_carry (setSession r.2 sid _) _ _)
      · exact links_carry (setSession r.2 sid _) _ (by simpa [overZlp, hx] using hz)
  | mgp => exact ⟨rfl, fun _ => rfl⟩
  | forged sid => exact ⟨rfl, fun _ => rfl⟩
  | token sid tseq => exact ⟨rfl, fun _ => rfl⟩

/-! ### A message turned away -/

/-- A message whose execution writes some registers and raises events touches, with its arrival and its reply, nothing else but the
counters of the way. -/
theorem frame_of_turned_away {s e : State} {src : Src} (m : WinMsg) {r : Reply × State} {fs : List Fld} (hc : Comes s src e)
    (hr : sameRegs e r.2 fs) (hu : unlogged r.2 = unlogged e) :
    sameRegs s (closeOut src m r) (fs ++ svcs) ∧ Untouched s (closeOut src m r) src := by
  obtain ⟨hin, hlinks, hzlp⟩ := untouched_of_comes hc
  obtain ⟨hin', hlinks'⟩ := untouched_closeOut src m r
  refine ⟨(((sameRegs_of_comes hc).trans hr).trans (sameRegs_closeOut src m r)).mono ?_, ?_, fun hz => ?_⟩
  · intro f hf
    simp only [svcs, List.mem_append, List.mem_cons, List.not_mem_nil, or_false] at hf ⊢
    tauto
  · exact hin'.trans ((inside_of_unlogged hu).trans hin)
  · exact (hlinks' (by rw [overZlp_of_unlogged hu, hzlp, hz])).trans ((links_of_unlogged hu).trans hlinks)

end Sys2Proof.Machine
end

section
/-! SUPPORT. Rejections as the statements put them, the window's verdicts (R28), and the reads that no reason rejects. -/

namespace Sys2Proof.Machine

/-! ### A rejection on its page (R42) -/

/-- The fields that a rejection leaves in its page. -/
abbrev rejFlds (page : Nat) : List Fld := [hREASON page, hSRC page, hOFFSET page, hREJCNT page, hPEVT page]

theorem rejFlds_ne_svcs (page : Nat) : ∀ f ∈ rejFlds page, ∀ g ∈ svcs, f.code ≠ g.code := by
  simp only [svcs, List.mem_cons, List.not_mem_nil, or_false, forall_eq_or_imp, forall_eq, Fld.code, hREASON, hSRC, hOFFSET, hREJCNT, hPEVT,
    SVC.SVRX_N, SVC.SVTX_N, TK.NREPL_N]
  omega

theorem rejFlds_ne_enterr (page : Nat) : ∀ f ∈ rejFlds page, f.code ≠ SCH.ENTERR_IDX.code := by
  simp only [List.mem_cons, List.not_mem_nil, or_false, forall_eq_or_imp, forall_eq, Fld.code, hREASON, hSRC, hOFFSET, hREJCNT, hPEVT,
    SCH.ENTERR_IDX]
  omega

/-- A message that its execution only records on a page stands rejected there when it is answered; `also`: what else the execution has
written. -/
theorem rejected_closeOut {s e : State} {src : Src} (m : WinMsg) {r : Reply × State} {page : Nat} {v : Viol} {also : List Fld}
    (hc : Comes s src e) (hr : sameRegs (recordRej e page src v.1 v.2) r.2 also)
    (hu : unlogged r.2 = unlogged (recordRej e page src v.1 v.2)) (ha : ∀ f ∈ rejFlds page, ∀ g ∈ also, f.code ≠ g.code) :
    Rejected s (closeOut src m r) src page v also := by
  have hkeep : ∀ f ∈ rejFlds page, get (closeOut src m r) f = get (recordRej e page src v.1 v.2) f := fun f hf =>
    (sameRegs_closeOut src m r f fun g hg => rejFlds_ne_svcs page f hf g (List.mem_cons_of_mem _ hg)).trans (hr f (ha f hf))
  have hcnt : get e (hREJCNT page) = get s (hREJCNT page) :=
    sameRegs_of_comes hc _ fun g hg => rejFlds_ne_svcs page _ (by simp) g (List.mem_singleton.1 hg ▸ List.mem_cons_self)
  obtain ⟨hregs, huntouched⟩ :=
    frame_of_turned_away m hc ((sameRegs_recordRej e src page v).trans hr) (hu.trans (unlogged_recordRej ..))
  refine ⟨?_, ?_, ?_, ?_, ?_, hregs.mono ?_, huntouched⟩
  · rw [hkeep _ (by simp), get_recordRej (x := v.1.code) (by simp [rejRegs])]
    exact Nat.mod_eq_of_lt v.1.code_lt
  · rw [hkeep _ (by simp), get_recordRej (x := srcCode src) (by simp [rejRegs])]
    rfl
  · rw [hkeep _ (by simp), get_recordRej (x := v.2) (by simp [rejRegs])]
    rfl
  · rw [hkeep _ (by simp), get_recordRej (x := min (get s (hREJCNT page) + 1) 65535) (by simp [rejRegs, hcnt])]
    exact Nat.mod_eq_of_lt (show _ < 65536 by omega)
  · rw [evt, hkeep _ (by simp)]
    exact evt_recordRej ..
  · intro f hf
    simp only [List.cons_append, List.mem_append, List.mem_cons] at hf ⊢
    tauto

/-! ### A record in DEV.XREJ (R33) -/

theorem xrejected_closeOut {s e : State} {src : Src} (m : WinMsg) (a : Reply) {page code : Nat} (rej : Bool) (hc : Comes s src e)
    (hcode : code < 256) : RejectedX s (closeOut src m (a, recordX e page src code rej)) src page code rej := by
  have hne : ∀ f ∈ [DEV.XREJ_REASON, DEV.XREJ_SRC, DEV.XREJ_PAGE, DEV.XREJCNT_COUNT, hPEVT pDEV], ∀ g ∈ svcs, f.code ≠ g.code := by decide
  have hkeep : ∀ f ∈ [DEV.XREJ_REASON, DEV.XREJ_SRC, DEV.XREJ_PAGE, DEV.XREJCNT_COUNT, hPEVT pDEV],
      get (closeOut src m (a, recordX e page src code rej)) f = get (recordX e page src code rej) f := fun f hf =>
    sameRegs_closeOut src m _ f fun g hg => hne f hf g (List.mem_cons_of_mem _ hg)
  have hcnt : get e DEV.XREJCNT_COUNT = get s DEV.XREJCNT_COUNT := sameRegs_of_comes hc _ (by decide)
  obtain ⟨hregs, huntouched⟩ :=
    frame_of_turned_away m (r := (a, recordX e page src code rej)) hc (sameRegs_recordX e src page code rej) (unlogged_recordX ..)
  refine ⟨?_, ?_, ?_, ?_, ?_, hregs.mono ?_, huntouched⟩
  · rw [hkeep _ (by simp), get_recordX (x := code) rej (by simp [xrejRegs])]
    exact Nat.mod_eq_of_lt hcode
  · rw [hkeep _ (by simp), get_recordX (x := srcCode src) rej (by simp [xrejRegs])]
    rfl
  · rw [hkeep _ (by simp), get_recordX (x := page) rej (by simp [xrejRegs])]
    rfl
  · rw [hkeep _ (by simp), get_recordX (x := min (get s DEV.XREJCNT_COUNT + 1) 65535) rej (by simp [xrejRegs, hcnt])]
    exact Nat.mod_eq_of_lt (show _ < 65536 by omega)
  · rintro rfl
    rw [evt, hkeep _ (by simp)]
    exact evt_recordX ..
  · intro f hf
    simp only [List.cons_append, List.mem_append, List.mem_cons] at hf ⊢
    tauto

/-! ### Where a rejection is recorded (R33, R42) -/

theorem record_of_recordable (s : State) (src : Src) {page : Nat} (v : Viol) (h1 : assigned page = true) (h2 : page ≠ pMAKER)
    (h3 : answers s page = true) : record s src page v = recordRej s page src v.1 v.2 := by
  simp [record, h1, h2, h3]

theorem record_of_unrecordable (s : State) (src : Src) {page : Nat} (v : Viol)
    (h : assigned page = false ∨ page = pMAKER ∨ answers s page = false) : record s src page v = recordX s page src v.1.code true :=
  if_pos (by simpa using h)

theorem unlogged_record (s : State) (src : Src) (page : Nat) (v : Viol) : unlogged (record s src page v) = unlogged s := by
  rw [record]
  split <;> simp

/-! ### The window (R28) -/

theorem pageOf_addr (page : Nat) {off : Nat} (h : off < 0x1000) : pageOf (page * 0x1000 + off) = page := by rw [pageOf]; omega

/-- A burst that ends within its page begins there. -/
theorem off_lt_of_lenOk {off n : Nat} (hl : lenOk n = true) (h : off + 4 * n ≤ 0x1000) : off < 0x1000 := by
  simp only [lenOk, Bool.and_eq_true, decide_eq_true_eq] at hl
  omega

theorem offOf_addr (page : Nat) {off : Nat} (h : off < 0x1000) : offOf (page * 0x1000 + off) = off := by rw [offOf]; omega

section Window

variable {s : State} {src : Src} {page off : Nat} {ws : List Word} {v : Viol}

theorem windowWrite_of_access (good : Bool) (ho : off < 0x1000) (h : worst (violAccess s src page off ws.length true) = some v) :
    windowWrite s src (page * 0x1000 + off) ws good = (v.1.code, record s src page v) := by
  simp only [windowWrite, pageOf_addr page ho, offOf_addr page ho, h]

theorem windowWrite_of_word {good : Bool} (ho : off < 0x1000) (ha : worst (violAccess s src page off ws.length true) = none)
    (h : worst (judge s src good page off ws).2 = some v) :
    windowWrite s src (page * 0x1000 + off) ws good = (v.1.code, rejectWrite s (judge s src good page off ws).1 src page ws off v) := by
  simp only [windowWrite, pageOf_addr page ho, offOf_addr page ho, ha, h]

theorem windowWrite_of_admits {good : Bool} (ho : off < 0x1000) (h : admits s src page off ws good = true) :
    windowWrite s src (page * 0x1000 + off) ws good = (0, commit s src good page off ws) := by
  rw [admits, Bool.and_eq_true, Option.isNone_iff_eq_none, Option.isNone_iff_eq_none] at h
  obtain ⟨ha, hj⟩ := h
  simp only [windowWrite, pageOf_addr page ho, offOf_addr page ho, ha, hj]

theorem windowRead_of_rejected (n : Nat) (bad : List Nat) (ho : off < 0x1000) (h : worst (violRead s src page off n) = some v) :
    windowRead s src (page * 0x1000 + off) n bad = (⟨v.1.code, List.replicate n 0#32, 0⟩, record s src page v) := by
  simp only [windowRead, pageOf_addr page ho, offOf_addr page ho, h]

theorem windowRead_of_none {n : Nat} (bad : List Nat) (ho : off < 0x1000) (hp : page ≠ pMAKER)
    (h : worst (violRead s src page off n) = none) :
    windowRead s src (page * 0x1000 + off) n bad =
      (⟨0, (readWords s src page bad off 0 n s).1, 0⟩, (readWords s src page bad off 0 n s).2) := by
  simp only [windowRead, pageOf_addr page ho, offOf_addr page ho, h, if_neg hp]

theorem windowRead_of_maker {n : Nat} (bad : List Nat) (ho : off < 0x1000) (h : worst (violRead s src pMAKER off n) = none) :
    windowRead s src (pMAKER * 0x1000 + off) n bad = (⟨0, List.replicate n 0#32, 0⟩, recordX s pMAKER src 0 false) := by
  simp only [windowRead, pageOf_addr pMAKER ho, offOf_addr pMAKER ho, h, if_true]

/-- A write that a word rejects is recorded, and on page SCH may write ENTERR (R59). -/
theorem rejectWrite_frame (img : State) :
    sameRegs (record s src page v) (rejectWrite s img src page ws off v) (if page = pSCH then [SCH.ENTERR_IDX] else []) ∧
      unlogged (rejectWrite s img src page ws off v) = unlogged (record s src page v) := by
  rw [rejectWrite]
  split
  next h =>
    rw [if_pos h.1]
    exact ⟨sameRegs_put _ _ _, rfl⟩
  next => exact ⟨sameRegs_refl _ _, rfl⟩

end Window

/-! ### Which accesses fail (R33, R41) -/

/-- An aligned access within a page, by a source with the right to it, fails only where the page is not assigned or does not answer. -/
theorem violAccess_of_rights {s : State} {src : Src} {page off n : Nat} {wr : Bool}
    (hw : wr = true → mayWrite (actRole s src) page = true ∧ page ≠ pMAKER ∧ (page = pUPD → onService s src = true))
    (ha : off % 4 = 0) (ho : off + 4 * n ≤ 0x1000) :
    violAccess s src page off n wr = viol (!assigned page) .range off ++ viol (assigned page && !answers s page) .state off := by
  have hauth : (wr && (!mayWrite (actRole s src) page || page = pMAKER || (page = pUPD && !onService s src))) = false := by
    cases wr with
    | false => rfl
    | true =>
      obtain ⟨h1, h2, h3⟩ := hw rfl
      simpa [h1, h2] using h3
  simp [violAccess, hauth, ha, viol, Nat.not_lt.2 ho]

/-- Off the pop window and the work window, or where the page does not answer, a read fails as an access only. -/
theorem violRead_eq_violAccess {s : State} {src : Src} {page off n : Nat} (h : answers s page = false ∨ (page ≠ pQUE ∧ page ≠ pCNV)) :
    violRead s src page off n = violAccess s src page off n false := by
  rcases h with h | ⟨hq, hc⟩
  · simp [violRead, h, viol]
  · have hpop : ∀ o, popPort page o = false := fun o => by simp [popPort, hq]
    have hwin : ∀ o, workWin page o = false := fun o => by simp [workWin, hc]
    simp [violRead, hpop, hwin, viol]

/-! ### Reads that no reason rejects -/

theorem length_readWords (s0 : State) (src : Src) (page : Nat) (bad : List Nat) (off k n : Nat) (s : State) :
    (readWords s0 src page bad off k n s).1.length = n := by
  induction n generalizing k s with
  | zero => rfl
  | succ n ih => rw [readWords, List.length_cons, ih]

/-- The sessions without their due notices: what events leave of them. -/
abbrev calm (s : State) : List (Nat × Option Session) := (unlogged s).sessions

theorem calm_raise (s : State) (page i : Nat) : calm (raise s page i) = calm s := congrArg State.sessions (unlogged_raiseAs s srcHW page i)

theorem calm_setPState (s : State) (page v : Nat) : calm (setPState s page v) = calm s := by
  have hput : calm (put s (hSTATE page) v) = calm s := rfl
  rw [setPState]
  split
  · rfl
  · dsimp only
    split <;> simp only [calm_raise, hput]

theorem calm_follow (page : Nat) (busy : State → Bool) (s : State) : calm (follow page busy s) = calm s := by
  rw [follow]
  split
  · exact calm_setPState ..
  · split
    · exact calm_setPState ..
    · rfl

theorem calm_refreshStream (s : State) : calm (refreshStream s) = calm s := by simp only [refreshStream, calm_follow]

theorem calm_endHold (s : State) (q : Nat) : calm (endHold s q) = calm s := by
  rw [endHold]
  split <;> rfl

theorem calm_putLevel (s : State) (q : Nat) : calm (putLevel s q) = calm s := congrArg State.sessions (unlogged_puts s _)

theorem calm_refreshQueue (s : State) (q : Nat) : calm (refreshQueue s q) = calm s := by
  have hput (t : State) (f : Fld) (x : Nat) : calm (put t f x) = calm t := rfl
  simp only [refreshQueue, calm_refreshStream, bumpSat_eq, apply_ite calm, calm_raise, hput, calm_putLevel, calm_endHold, ite_self]

theorem calm_popWord (s : State) (q : Nat) (bad : Bool) : calm (popWord s q bad).2 = calm s := by
  have hset (t : State) (x : Queue) : calm (setQueue t q x) = calm t := rfl
  have hfail (t : State) : calm (parityFail t q) = calm t := calm_raise ..
  have hread (it : QItem) (k : Nat) : calm (readBad s it k bad).2 = calm s := by cases bad <;> rfl
  rw [popWord]
  dsimp only
  split
  · rfl
  · simp only [calm_refreshQueue, hset, apply_ite calm, hfail, hread, ite_self]

theorem calm_readWords (s0 : State) (src : Src) (page : Nat) (bad : List Nat) (off k n : Nat) (s : State) :
    calm (readWords s0 src page bad off k n s).2 = calm s := by
  induction n generalizing k s with
  | zero => rfl
  | succ n ih =>
    rw [readWords]
    dsimp only
    rw [ih]
    split
    · exact calm_popWord ..
    · rfl

/-! ### Bursts that come in their turn -/

theorem exec_writeBurst (src : Src) (addr : Nat) (ws : List Word) (good : Bool) (s : State) :
    exec (.writeBurst src addr ws good) s = .next (deliver s src (.write addr ws good)) := rfl

theorem exec_readBurst (src : Src) (addr n : Nat) (bad : List Nat) (s : State) :
    exec (.readBurst src addr ⟨n, bad, false⟩) s = .next (deliver s src (.read addr n bad)) := rfl

/-- A write burst in its turn runs, and ends in the window's verdict closed out. -/
theorem answers_writeBurst {s e : State} {src : Src} {addr : Nat} {ws : List Word} {good : Bool} {P : State → Prop} (hc : Comes s src e)
    (hl : lenOk ws.length = true)
    (h : P (closeOut src (.write addr ws good)
      (⟨(windowWrite e src addr ws good).1, [], 0⟩, (windowWrite e src addr ws good).2))) :
    Answers (.writeBurst src addr ws good) s P :=
  ⟨_, exec_writeBurst .., (deliver_of_comes (m := .write addr ws good) hc hl).symm ▸ h⟩

theorem answers_readBurst {s e : State} {src : Src} {addr n : Nat} {bad : List Nat} {P : State → Prop} (hc : Comes s src e)
    (hl : lenOk n = true) (h : P (closeOut src (.read addr n bad) (windowRead e src addr n bad))) :
    Answers (.readBurst src addr ⟨n, bad, false⟩) s P :=
  ⟨_, exec_readBurst .., (deliver_of_comes (m := .read addr n bad) hc hl).symm ▸ h⟩

/-- A message whose execution has left the sessions there are is replied to. -/
theorem replied_of_calm {s e : State} {src : Src} (m : WinMsg) {r : Reply × State} (hc : Comes s src e) (h : calm r.2 = calm e) :
    Replied (closeOut src m r) src r.1.status r.1.data := by
  refine replied_closeOut m fun sid tseq hsrc => ?_
  subst hsrc
  rw [isSome_session_of_sessions h, session_of_comes hc]

end Sys2Proof.Machine
end

section
/-! The accesses that are rejected and recorded, and those that are not (R33, R42). -/

namespace Sys2Proof.Machine

/-! ### Bursts to a page that can record them (R42) -/

section Recordable

variable {s e : State} {src : Src} {page off : Nat} {v : Viol}

/-- An access that `record` writes down is rejected on a page that can record it. -/
theorem rejected_of_record (m : WinMsg) (a : Reply) (hc : Comes s src e) (h1 : assigned page = true) (h2 : page ≠ pMAKER)
    (h3 : answers e page = true) (also : List Fld) (ha : ∀ f ∈ rejFlds page, ∀ g ∈ also, f.code ≠ g.code) :
    Rejected s (closeOut src m (a, record e src page v)) src page v also :=
  record_of_recordable e src v h1 h2 h3 ▸ rejected_closeOut m hc (sameRegs_refl _ also) rfl ha

/-- ENTERR is none of the fields that a rejection leaves. -/
theorem rejFlds_ne_also (page : Nat) : ∀ f ∈ rejFlds page, ∀ g ∈ (if page = pSCH then [SCH.ENTERR_IDX] else []), f.code ≠ g.code := by
  intro f hf g hg
  split at hg
  · exact List.mem_singleton.1 hg ▸ rejFlds_ne_enterr page f hf
  · exact absurd hg (List.not_mem_nil)

theorem write_rejected {ws : List Word} {good : Bool} (hc : Comes s src e) (ho : off < 0x1000) (h1 : assigned page = true)
    (h2 : page ≠ pMAKER) (h3 : answers e page = true) (hl : lenOk ws.length = true)
    (hv : worst (violAccess e src page off ws.length true) = some v ∨
      (worst (violAccess e src page off ws.length true) = none ∧ worst (judge e src good page off ws).2 = some v)) :
    Answers (.writeBurst src (page * 0x1000 + off) ws good) s fun t =>
      Replied t src v.1.code [] ∧ Rejected s t src page v (if page = pSCH then [SCH.ENTERR_IDX] else []) := by
  refine answers_writeBurst hc hl ?_
  rcases hv with hv | ⟨ha, hv⟩
  · rw [windowWrite_of_access good ho hv]
    exact ⟨replied_of_calm _ hc (congrArg State.sessions (unlogged_record ..)), rejected_of_record _ _ hc h1 h2 h3 _ (rejFlds_ne_also page)⟩
  · obtain ⟨hregs, hrest⟩ := rejectWrite_frame (s := e) (src := src) (page := page) (off := off) (ws := ws) (v := v)
      (judge e src good page off ws).1
    rw [record_of_recordable e src v h1 h2 h3] at hregs hrest
    rw [windowWrite_of_word ho ha hv]
    exact ⟨replied_of_calm _ hc (congrArg State.sessions (hrest.trans (unlogged_recordRej ..))),
      rejected_closeOut _ hc hregs hrest (rejFlds_ne_also page)⟩

theorem read_rejected {n : Nat} (bad : List Nat) (hc : Comes s src e) (ho : off < 0x1000) (h1 : assigned page = true) (h2 : page ≠ pMAKER)
    (h3 : answers e page = true) (hl : lenOk n = true) (hv : worst (violRead e src page off n) = some v) :
    Answers (.readBurst src (page * 0x1000 + off) ⟨n, bad, false⟩) s fun t =>
      Replied t src v.1.code (List.replicate n 0#32) ∧ Rejected s t src page v [] := by
  refine answers_readBurst hc hl ?_
  rw [windowRead_of_rejected n bad ho hv]
  exact ⟨replied_of_calm _ hc (congrArg State.sessions (unlogged_record ..)), rejected_of_record _ _ hc h1 h2 h3 [] (by simp)⟩

/-- A write that no reason rejects is replied to with status 0 in a session that it leaves open. -/
theorem write_accepted {ws : List Word} {good : Bool} (hc : Comes s src e) (ho : off < 0x1000) (hl : lenOk ws.length = true)
    (ha : admits e src page off ws good = true) :
    Answers (.writeBurst src (page * 0x1000 + off) ws good) s fun t =>
      ∀ sid tseq, src = .session sid tseq → (session t sid).isSome = true → Replied t src 0 [] := by
  refine answers_writeBurst hc hl ?_
  rw [windowWrite_of_admits ho ha]
  rintro sid tseq rfl hs
  exact replied_closeOut _ fun _ _ h => by
    obtain ⟨rfl, rfl⟩ := Src.session.inj h
    exact isSome_session_of_closeOut hs

theorem read_accepted {n : Nat} (bad : List Nat) (hc : Comes s src e) (ho : off < 0x1000) (h2 : page ≠ pMAKER) (hl : lenOk n = true)
    (hv : worst (violRead e src page off n) = none) :
    Answers (.readBurst src (page * 0x1000 + off) ⟨n, bad, false⟩) s fun t => ∃ data, data.length = n ∧ Replied t src 0 data := by
  refine answers_readBurst hc hl ?_
  rw [windowRead_of_none bad ho h2 hv]
  exact ⟨_, length_readWords e src page bad off 0 n e, replied_of_calm _ hc (calm_readWords ..)⟩

end Recordable

/-! ### Bursts that no page can record (R33) -/

section Unrecordable

variable {s e : State} {src : Src} {page off : Nat}

/-- A message that DEV.XREJ records is replied to and stands there. -/
theorem xrej_closeOut (m : WinMsg) (code : Nat) (data : List Word) (rej : Bool) (hc : Comes s src e) (hcode : code < 256) :
    Replied (closeOut src m (⟨code, data, 0⟩, recordX e page src code rej)) src code data ∧
      RejectedX s (closeOut src m (⟨code, data, 0⟩, recordX e page src code rej)) src page code rej :=
  ⟨replied_of_calm m hc (congrArg State.sessions (unlogged_recordX ..)), xrejected_closeOut m _ rej hc hcode⟩

theorem write_to_xrej {ws : List Word} (good : Bool) {v : Viol} (hc : Comes s src e) (ho : off < 0x1000) (hl : lenOk ws.length = true)
    (hp : assigned page = false ∨ page = pMAKER ∨ answers e page = false) (hv : worst (violAccess e src page off ws.length true) = some v) :
    Answers (.writeBurst src (page * 0x1000 + off) ws good) s fun t =>
      Replied t src v.1.code [] ∧ RejectedX s t src page v.1.code true := by
  refine answers_writeBurst hc hl ?_
  rw [windowWrite_of_access good ho hv, record_of_unrecordable e src v hp]
  exact xrej_closeOut _ _ [] true hc v.1.code_lt

theorem read_to_xrej {n : Nat} (bad : List Nat) {v : Viol} (hc : Comes s src e) (ho : off < 0x1000) (hl : lenOk n = true)
    (hp : assigned page = false ∨ page = pMAKER ∨ answers e page = false) (hv : worst (violRead e src page off n) = some v) :
    Answers (.readBurst src (page * 0x1000 + off) ⟨n, bad, false⟩) s fun t =>
      Replied t src v.1.code (List.replicate n 0#32) ∧ RejectedX s t src page v.1.code true := by
  refine answers_readBurst hc hl ?_
  rw [windowRead_of_rejected n bad ho hv, record_of_unrecordable e src v hp]
  exact xrej_closeOut _ _ _ true hc v.1.code_lt

theorem read_of_maker {n : Nat} (bad : List Nat) (hc : Comes s src e) (ha : off % 4 = 0) (hn : off + 4 * n ≤ 0x1000)
    (hl : lenOk n = true) (h : answers e pMAKER = true) :
    Answers (.readBurst src (pMAKER * 0x1000 + off) ⟨n, bad, false⟩) s fun t =>
      Replied t src 0 (List.replicate n 0#32) ∧ RejectedX s t src pMAKER 0 false := by
  have hv : worst (violRead e src pMAKER off n) = none := by
    rw [violRead_eq_violAccess (.inr (by decide)), violAccess_of_rights (by simp) ha hn, h]
    rfl
  refine answers_readBurst hc hl ?_
  rw [windowRead_of_maker bad (off_lt_of_lenOk hl hn) hv]
  exact xrej_closeOut _ 0 _ false hc (by decide)

/-- A write to MAKER is rejected with AUTH, whatever else is wrong with it (R33, R41). -/
theorem write_to_maker {ws : List Word} (good : Bool) (hc : Comes s src e) (ho : off < 0x1000) (hl : lenOk ws.length = true) :
    Answers (.writeBurst src (pMAKER * 0x1000 + off) ws good) s fun t => Replied t src 4 [] ∧ RejectedX s t src pMAKER 4 true := by
  obtain ⟨o, hv⟩ := worst_of_auth_mem (l := violAccess e src pMAKER off ws.length true) (o := off) (by simp [violAccess, viol])
  exact write_to_xrej good hc ho hl (.inr (.inl rfl)) hv

/-- The reason of an access, aligned and within a page, to a page that is not assigned; and to one that does not answer. -/
theorem worst_unassigned (h : assigned page = false) :
    worst (viol (!assigned page) .range off ++ viol (assigned page && !answers e page) .state off) = some (.range, off) := by
  rw [h]
  rfl

theorem worst_silent (h : assigned page = true) (ha : answers e page = false) :
    worst (viol (!assigned page) .range off ++ viol (assigned page && !answers e page) .state off) = some (.state, off) := by
  rw [h, ha]
  rfl

end Unrecordable

end Sys2Proof.Machine

namespace Sys2Proof

open Machine

/-- Settles O7: the window's four verdicts, each carried through the arrival of the message and its reply. -/
theorem rejectedAccessIsRecorded : Obligations.RejectedAccessIsRecorded := by
  intro s e src page off hc ho h1 h2 h3
  exact ⟨fun ws good v hl hv => write_rejected hc ho h1 h2 h3 hl hv, fun n bad v hl hv => read_rejected bad hc ho h1 h2 h3 hl hv,
    fun ws good hl ha => write_accepted hc ho hl ha, fun n bad hl hv => read_accepted bad hc ho h2 hl hv⟩

/-- Settles O8: such an access fails for its page alone, or with AUTH on MAKER, and DEV.XREJ records it. -/
theorem unrecordedAccessGoesToXrej : Obligations.UnrecordedAccessGoesToXrej := by
  intro s e src page off hc ha
  refine ⟨fun ws good hl hn hw hu hm => ?_, fun n bad hl hn => ?_, ?_⟩
  · have ho := off_lt_of_lenOk hl hn
    have hv := violAccess_of_rights (s := e) (src := src) (wr := true) (fun _ => ⟨hw, hm, hu⟩) ha hn
    exact ⟨fun h => write_to_xrej good (v := (.range, off)) hc ho hl (.inl h) (hv ▸ worst_unassigned h),
      fun h h' => write_to_xrej good (v := (.state, off)) hc ho hl (.inr (.inr h')) (hv ▸ worst_silent h h')⟩
  · have ho := off_lt_of_lenOk hl hn
    have hv := violAccess_of_rights (s := e) (src := src) (page := page) (wr := false) (by simp) ha hn
    refine ⟨fun h => ?_, fun h h' => ?_, ?_⟩
    · have hp : page ≠ pQUE ∧ page ≠ pCNV := by constructor <;> rintro rfl <;> exact absurd h (by decide)
      exact read_to_xrej bad (v := (.range, off)) hc ho hl (.inl h) ((violRead_eq_violAccess (.inr hp)).trans hv ▸ worst_unassigned h)
    · exact read_to_xrej bad (v := (.state, off)) hc ho hl (.inr (.inr h')) ((violRead_eq_violAccess (.inl h')).trans hv ▸ worst_silent h h')
    · rintro rfl h
      exact read_of_maker bad hc ha hn hl h
  · rintro ws good hl ho rfl
    exact write_to_maker good hc ho hl

end Sys2Proof
end

section
/-! Subscribe (R429): what it makes of its session, and its way to the reply. -/

namespace Sys2Proof.Machine

/-! ### The rows of R429's table -/

section Table

variable {s : State} {sid page val : Nat} {x : Session}

theorem subscribe_of_range (hx : session s sid = some x) (hr : assigned page = false ∨ 1 < val) :
    subscribe s sid page val = (2, s) := by
  simp [subscribe, hx, hr, Reason.code]

theorem subscribe_of_zero (hx : session s sid = some x) (hr : ¬ (assigned page = false ∨ 1 < val)) (h0 : val = 0) :
    subscribe s sid page val =
      (0, setSession s sid (some { x with subs := x.subs.filter (· != page), due := x.due.filter (· != page) })) := by
  obtain ⟨ha, -⟩ := not_or.1 hr
  simp [subscribe, hx, h0, ha]

theorem subscribe_of_mem (hx : session s sid = some x) (hr : ¬ (assigned page = false ∨ 1 < val)) (h0 : val ≠ 0) (hm : page ∈ x.subs) :
    subscribe s sid page val = (0, s) := by
  simp [subscribe, hx, hr, h0, hm]

theorem subscribe_of_full (hx : session s sid = some x) (hr : ¬ (assigned page = false ∨ 1 < val)) (h0 : val ≠ 0) (hm : page ∉ x.subs)
    (hl : 32 ≤ x.subs.length) : subscribe s sid page val = (7, s) := by
  simp [subscribe, hx, hr, h0, hm, hl, Reason.code]

theorem subscribe_of_room (hx : session s sid = some x) (hr : ¬ (assigned page = false ∨ 1 < val)) (h0 : val ≠ 0) (hm : page ∉ x.subs)
    (hl : ¬ 32 ≤ x.subs.length) : subscribe s sid page val = (0, setSession s sid (some { x with subs := x.subs ++ [page] })) := by
  simp [subscribe, hx, hr, h0, hm, hl]

end Table

/-! ### A message that changes sessions only -/

/-- Nothing differs between two states but their sessions. -/
def SessionsOnly (s t : State) : Prop := { t with sessions := [] } = { s with sessions := [] }

theorem SessionsOnly.refl (s : State) : SessionsOnly s s := rfl

theorem sessionsOnly_setSession (s : State) (sid : Nat) (v : Option Session) : SessionsOnly s (setSession s sid v) := rfl

/-- What does not read the sessions is the same before and after. -/
theorem SessionsOnly.congr {A : Type} {s t : State} (h : SessionsOnly s t) (f : State → A) :
    f { t with sessions := [] } = f { s with sessions := [] } := congrArg f h

theorem SessionsOnly.sameRegs {s t : State} (h : SessionsOnly s t) : sameRegs s t [] := fun f _ => h.congr (get · f)

theorem SessionsOnly.inside {s t : State} (h : SessionsOnly s t) : inside t = inside s := h.congr Machine.inside

theorem SessionsOnly.links {s t : State} (h : SessionsOnly s t) : t.links = s.links := h.congr State.links

/-- A message that changes sessions only, and not the path of its own, touches with its arrival and its reply nothing but the counters of
the way. -/
theorem frame_of_sessionsOnly {s e : State} {src : Src} (m : WinMsg) {r : Reply × State} (hc : Comes s src e) (hr : SessionsOnly e r.2)
    (hz : overZlp r.2 src = overZlp e src) : sameRegs s (closeOut src m r) svcs ∧ Untouched s (closeOut src m r) src := by
  obtain ⟨hin, hlinks, hzlp⟩ := untouched_of_comes hc
  obtain ⟨hin', hlinks'⟩ := untouched_closeOut src m r
  exact ⟨((sameRegs_of_comes hc).trans hr.sameRegs).trans (sameRegs_closeOut src m r), hin'.trans (hr.inside.trans hin),
    fun h => (hlinks' (hz.trans (hzlp.trans h))).trans (hr.links.trans hlinks)⟩

/-! ### What the reply leaves of a session's subscriptions -/

theorem session_offWire (s : State) (sid : Nat) : session (offWire s) sid = (session s sid).map undue := session_unlogged s sid

theorem subs_carry (s : State) (p : Path) (ws : List Word) (sid : Nat) :
    (session (carry s p ws) sid).map (·.subs) = (session s sid).map (·.subs) := by
  have h := congrArg (fun u => (session u sid).map (·.subs)) (offWire_carry s p ws)
  simpa [session_offWire, Function.comp_def, undue] using h

theorem subs_closeOut {sid : Nat} {r : Reply × State} {y : Session} (tseq : Nat) (m : WinMsg) (h : session r.2 sid = some y) :
    (session (closeOut (.session sid tseq) m r) sid).map (·.subs) = some y.subs := by
  simp only [closeOut, h]
  rw [answer_eq (session_setSession_same ..), session_emit, subs_carry, session_setSession_same]
  rfl

/-! ### Subscribe in its turn, and the silent notice -/

/-- A Subscribe that comes in its turn, from what its execution makes of its session to its reply. -/
theorem answers_subscribe {s e t : State} {sid tseq page val st : Nat} {x y : Session} (hc : Comes s (.session sid tseq) e)
    (hx : session e sid = some x) (h : subscribe e sid page val = (st, t)) (ht : SessionsOnly e t) (hy : session t sid = some y)
    (hp : y.path = x.path) :
    Answers (.subscribe sid tseq page val) s fun u =>
      sameRegs s u svcs ∧ Untouched s u (.session sid tseq) ∧ Replied u (.session sid tseq) st [] ∧
        (session u sid).map (·.subs) = some y.subs := by
  have htake : takeMsg e (.session sid tseq) (.sub page val) = (⟨st, [], 0⟩, t) := by simp [takeMsg, srcSid, h]
  have hrun := (deliver_of_comes hc rfl).trans (congrArg (closeOut _ _) htake)
  obtain ⟨hregs, hrest⟩ := frame_of_sessionsOnly (.sub page val) (r := (⟨st, [], 0⟩, t)) hc ht (by simp [overZlp, hx, hy, hp])
  have hthere : ∀ sid' tseq', Src.session sid tseq = .session sid' tseq' → (session t sid').isSome = true := by
    rintro _ _ ⟨⟩
    rw [hy]
    rfl
  exact ⟨_, congrArg Host.Outcome.next hrun, hregs, hrest, replied_closeOut _ hthere, subs_closeOut tseq _ hy⟩

/-- A page that does not answer raises no notice (R33, R429). -/
theorem execNotice_of_silent {s : State} {page : Nat} (sid : Nat) (h : answers s page = false) : execNotice sid page s = .next s := by
  rw [execNotice]
  split
  · rfl
  · simp [h]

end Sys2Proof.Machine

namespace Sys2Proof

open Machine

/-- Settles O11: the rows of R429's table in turn, each carried through the arrival of the message and its reply. -/
theorem subscribeReplies : Obligations.SubscribeReplies := by
  intro s e sid tseq page val x hc hx
  refine ⟨?_, execNotice_of_silent sid⟩
  have he : session e sid = some { x with last := s.cyc } := by
    obtain ⟨-, x', hx', -, -, -, rfl⟩ := hc
    obtain rfl := Option.some.inj (hx.symm.trans hx')
    exact session_arrived ..
  have kept {st : Nat} (h : subscribe e sid page val = (st, e)) := answers_subscribe hc he h (.refl e) he rfl
  split_ifs with hrange hzero hmem hfull
  · exact kept (subscribe_of_range he hrange)
  · obtain ⟨t, ht, hregs, hrest, hrep, hsubs⟩ := answers_subscribe hc he (subscribe_of_zero he hrange hzero)
      (sessionsOnly_setSession ..) (session_setSession_same ..) rfl
    obtain ⟨y, hy, hys⟩ := Option.map_eq_some_iff.1 hsubs
    exact ⟨t, ht, hregs, hrest, hrep, y, hy, by simp [hys], fun p hp => by simp [hys, hp]⟩
  · exact kept (subscribe_of_mem he hrange hzero hmem)
  · exact kept (subscribe_of_full he hrange hzero hmem hfull)
  · exact answers_subscribe hc he (subscribe_of_room he hrange hzero hmem hfull) (sessionsOnly_setSession ..)
      (session_setSession_same ..) rfl

end Sys2Proof
end
